-- ==== Sys2Proof/Word.lean ====
section
/-! DEFINITION. The two fixed widths of the block: an 8-bit sample and a 32-bit register value
(spec 00_scope.md R7, R8, R12). -/

namespace Sys2Proof

/-- A sample: an unsigned 8-bit value (R7, SAMPLE_W). -/
abbrev Byte := BitVec 8

/-- A register value, a command word, a PRNG word or a byte address: 32 bits (R8, R12). -/
abbrev Word := BitVec 32

end Sys2Proof
end

