-- ==== Sys2Proof/Syntax.lean ====
section
/-! DEFINITION. The command set and the register accesses as syntax: one constructor of `Instr` for each
row of spec/opcode_table.json, the two formats of 30_encoding.md R69, the register map of
10_state.md R22, and the host notation of 30_encoding.md R74 and R75. -/

namespace Sys2Proof

/-- The four methods (R7; the METHOD field of R69). -/
inductive Method where
  | xor
  | swap
  | math
  | shuffle
deriving DecidableEq, Repr, Inhabited

/-- The direction of a method (the DIR field of R69). -/
inductive Dir where
  | enc
  | dec
deriving DecidableEq, Repr, Inhabited

/-- A latched command `eng.op = (method, dir)` (R45). -/
structure Op where
  method : Method
  dir : Dir
deriving DecidableEq, Repr, Inhabited

/-- The instructions: the eight commands (R71) and the host's two register operations (R76, R77).
A command carries no operand (R70): its operands are registers. `off` is the byte offset in the
64-byte register window, address bits [5:0] of the access. -/
inductive Instr where
  | xorEnc
  | xorDec
  | swapEnc
  | swapDec
  | mathEnc
  | mathDec
  | shufEnc
  | shufDec
  | rd (off : BitVec 6)
  | wr (off : BitVec 6) (data : Word)
deriving DecidableEq, Repr

/-- The command instruction that a latched operation stands for (R71). -/
def Op.instr : Op → Instr
  | ⟨.xor, .enc⟩ => .xorEnc
  | ⟨.xor, .dec⟩ => .xorDec
  | ⟨.swap, .enc⟩ => .swapEnc
  | ⟨.swap, .dec⟩ => .swapDec
  | ⟨.math, .enc⟩ => .mathEnc
  | ⟨.math, .dec⟩ => .mathDec
  | ⟨.shuffle, .enc⟩ => .shufEnc
  | ⟨.shuffle, .dec⟩ => .shufDec

/-- The registers of the window (R22). The four offsets 0x30 to 0x3C are one name, `reserved` (R40). -/
inductive Reg where
  | id
  | caps
  | cmd
  | status
  | key
  | srcBase
  | dstBase
  | height
  | width
  | channels
  | irqEn
  | errAddr
  | reserved
deriving DecidableEq, Repr

/-- The width of a transaction on the register slave port (R55 accepts `word` only). -/
inductive AccessSize where
  | byte
  | half
  | word
deriving DecidableEq, Repr

/-- Format BUS (R69): one transaction on the register slave port, as the port sees it. `write` is RW,
`addr` the address bits [5:0], `strobe` the four byte strobes (R55), `data` the write data. -/
structure BusAccess where
  write : Bool
  addr : BitVec 6
  size : AccessSize
  strobe : BitVec 4
  data : Word
deriving DecidableEq, Repr

/-- The two formats of R69: a register access, and the command word that a write to CMD carries. -/
inductive Frame where
  | bus (a : BusAccess)
  | cmdw (w : Word)
deriving DecidableEq, Repr

/-- A statement of the host notation (R74), and the loop that R75 defines over them. The other pseudo-instructions of R75
are lists of these (`Machine.HostProgram`). -/
inductive HostStmt where
  /-- `WR <REG>, <imm32>`. -/
  | wr (r : Reg) (d : Word)
  /-- `RD <REG>`. -/
  | rd (r : Reg)
  /-- `MW <addr>, <byte>`. -/
  | mw (addr : Word) (v : Byte)
  /-- `MR <addr>`. -/
  | mr (addr : Word)
  /-- `WAITIDLE`: repeat `RD STATUS` until bit 0 of the result is 0. -/
  | waitIdle
deriving DecidableEq, Repr

end Sys2Proof
end

