-- ==== Sys2Proof/Config.lean ====
section
/-! DEFINITION. What the spec leaves open. The parameters that a platform fixes (92_eei_decisions.md, OPEN:
PERM_DEPTH, REG_BASE, MEM_ADMIT) are plain data in `Platform`, which the State carries and no step changes,
so that a statement about every state is about every platform. The values the spec calls unspecified or
'any value' are opaque constants: nothing can be proved of what they are. -/

namespace Sys2Proof

/-- The direction of a buffer-memory access (R68). -/
inductive AccessDir where
  | read
  | write
deriving DecidableEq, Repr

/-- The OPEN parameters (R8, 93 I17 to I19) and the stalled accesses of 93 I13. DESIGN CHOICE (safe): see
notes/assumptions/2.md. -/
structure Platform where
  /-- PERM_DEPTH, the depth of the permutation RAM in pixels (R8, R30). -/
  permDepth : Word
  /-- REG_BASE[31:6]; REG_BASE is 64-byte aligned, so its low six bits are 0 (R8, R22, R57, 92 OPEN table). The spec gives the host's
  register-bus address no width (ADDR_W is the buffer memory's): 32 bits, so 26 here, are the model's choice (DESIGN CHOICE,
  notes/assumptions/22.md). -/
  regPage : BitVec 26
  /-- The accesses for which MEM_ADMIT is false (R68). Every predicate over the 2^32 addresses is such a list. -/
  refused : List (Word × AccessDir)
  /-- The accesses to which the bus never responds (R146, 93 I13). -/
  stalled : List (Word × AccessDir)
deriving DecidableEq, Repr

/-- The reference configuration of 95_test_vectors.md: PERM_DEPTH = 65536 and every access admitted.
REG_BASE = 0 is the model's (DESIGN CHOICE, notes/assumptions/2.md). -/
def Platform.reference : Platform :=
  { permDepth := 65536#32, regPage := 0#26, refused := [], stalled := [] }

namespace Config

/-- A buffer byte that is 'any value' (93 I1, I2, I5, I6): byte `i` of the free values of one epoch. -/
opaque freeByte (epoch i : Nat) : Byte

/-- Which erroring access ERRADDR records, when there are several (93 I7): an index, reduced by its user. -/
opaque freeChoice (epoch : Nat) : Nat

/-- `mt[i]` while unspecified (R42, 93 I9). -/
opaque freeMt (epoch i : Nat) : Word

/-- `mti` while unspecified (R42); its user reduces it to 0..624. -/
opaque freeMti (epoch : Nat) : Nat

/-- `PERM[i]` while unspecified (R43, 93 I9). -/
opaque freePerm (epoch i : Nat) : Word

/-- `CP[i]` while unspecified (R44, 93 I9). -/
opaque freeCp (epoch i : Nat) : BitVec 2

/-- An entry of the XOR byte stream or of the pixel staging while unspecified (R44). -/
opaque freeSample (epoch i : Nat) : Byte

/-- An entry of the noise values while unspecified (R44). -/
opaque freeNoise (epoch i : Nat) : Int

/-- `eng.op` while IDLE (R45). -/
opaque freeOp (epoch : Nat) : Op

/-- The value of a masked-rejection draw whose loop has rejected every word of the model's bound
(`Machine.drawLimit`; notes/assumptions/9.md): a function of the bound `max` of the draw. -/
opaque freeDraw (max : Nat) : Nat

end Config

end Sys2Proof
end

