-- ==== Sys2Proof/Machine/State.lean ====
section
/-! DEFINITION. The machine's state as plain data: the register set of 10_state.md section 2, the internal state of
its section 3, the ports of R48, the buffer memory, and the schedule that says which agent of R10 moves next.
Reserved bits have no storage (93 I14). -/

namespace Sys2Proof.Machine

/-- Why a step stops the machine with a fault. -/
inductive Fault where
  /-- Raised by the fetch of a bus transaction whose address bits [31:6] are not those of REG_BASE: the block decodes
  only its 64-byte window (R22, R50), and the spec says nothing of what else is on that bus. Safe: the model stops
  where the hardware goes on. -/
  | outsideRegisterWindow
deriving DecidableEq, Repr

/-- Why the model gives a step no meaning. -/
inductive Refusal where
  /-- An instruction that `exec` does not model yet (no arm does this now). Safe. -/
  | notModelled (mnemonic : String)
  /-- Raised by a register access while rst is asserted: 'The result of a register access is unspecified, and a model
  refuses it' (R151, 93 I10). Safe. -/
  | registerAccessInReset
deriving DecidableEq, Repr

/-- The error codes of R136; codes 7 to 15 are never produced and have no constructor (93 I15). -/
inductive ErrCode where
  | none
  | invalidMethod
  | shapeMismatch
  | addrRange
  | overlap
  | capacity
  | busError
deriving DecidableEq, Repr

/-- The fields of STATUS (R32 to R36). -/
structure Status where
  busy : Bool
  done : Bool
  err : Bool
  ign : Bool
  errCode : ErrCode
deriving DecidableEq, Repr

/-- The PRNG state `mt[0..623]` and `mti` (R42). -/
structure Prng where
  mt : List Word
  mti : Nat
deriving DecidableEq, Repr

/-- An internal array whose contents outlast no command (R43, R44): entries 0, 1, … hold `written`; every further entry is
unspecified, and reads the free value that its user keys by `epoch`. -/
structure Store (α : Type) where
  epoch : Nat
  written : List α
deriving DecidableEq, Repr

/-- The PRNG state that the model gives the machine at reset, where R49 says 'unspecified' (DESIGN CHOICE,
notes/assumptions/5.md). -/
def Prng.blank : Prng := { mt := List.replicate 624 0#32, mti := 0 }

/-- The internal state of the PRNG and the method units (R42 to R44). -/
structure Internal where
  /-- `mt[]`, `mti` (R42). -/
  prng : Prng
  /-- The permutation RAM (R43). -/
  perm : Store Word
  /-- The channel-permutation register `CP[0..2]` (R44). -/
  cp : List (BitVec 2)
  /-- The XOR byte stream `X` (R44, R102). -/
  xorStream : Store Byte
  /-- The noise values `NZ` (R44, R123). -/
  noise : Store Int
  /-- The per-pixel staging `T` (R44, R130). -/
  stage : Store Byte
deriving DecidableEq, Repr

/-- What the register slave port last answered (R48, R55, R76, R77). `none`: no answer since reset was last modelled. -/
inductive Response where
  | none
  | data (v : Word)
  | done
  | busError
deriving DecidableEq, Repr

/-- One move of an agent of R10, as R89 lists them. -/
inductive Event where
  /-- HOST: a bus transaction whose address bits [31:6] are `page` (R69, R76, R77). That the bus address has 32 bits is the model's
  choice (DESIGN CHOICE, notes/assumptions/22.md). -/
  | bus (page : BitVec 26) (a : BusAccess)
  /-- HOST: the next statement of the host's program (R74, R75). -/
  | host
  /-- ENGINE: the running command ends, if it can (R83, R84). -/
  | engine
  /-- HOST: a write of one buffer-memory byte on the host's own path (R74 MW, R89 HostMem). -/
  | memWrite (addr : Word) (v : Byte)
  /-- HOST: a read of one buffer-memory byte on the host's own path (R74 MR, R89 HostMem). -/
  | memRead (addr : Word)
  /-- Environment: the level of the reset input (R151). -/
  | rst (level : Bool)
deriving DecidableEq, Repr

/-- The buffer memory: the bytes that differ from what an unlisted address reads as, addresses strictly rising. -/
abbrev Memory := List Host.Cell

/-- The whole machine. -/
structure State where
  /-- The platform's parameters; no step changes them (R8). -/
  platform : Platform
  /-- The level of the reset input (R48, R151). -/
  rst : Bool
  /-- STATUS (R32 to R37). -/
  status : Status
  /-- KEY (R24). -/
  key : Word
  /-- SRC_BASE (R25). -/
  srcBase : Word
  /-- DST_BASE (R26). -/
  dstBase : Word
  /-- HEIGHT[15:0] (R27). -/
  height : BitVec 16
  /-- WIDTH[15:0] (R28). -/
  width : BitVec 16
  /-- CHANNELS[7:0] (R29). -/
  channels : BitVec 8
  /-- IRQ_EN[1:0]: bit 0 DONE_IE, bit 1 ERR_IE (R38). -/
  irqEn : BitVec 2
  /-- ERRADDR (R39). -/
  errAddr : Word
  /-- The latched command `eng.op` (R45). -/
  op : Op
  /-- The running command is disturbed (R61, R89). -/
  disturbed : Bool
  /-- The internal state of the units (R42 to R44). -/
  eng : Internal
  /-- The buffer memory (R50). -/
  mem : Memory
  /-- What the register slave port last answered (the port of R48). -/
  resp : Response
  /-- What the host's last `MR` returned (R74); the model's own field. -/
  hostByte : Byte
  /-- The moves still to come, first first (R89: any interleaving); the model's own field. -/
  schedule : List Event
  /-- The host's program still to run, in the notation of R74 and R75; the model's own field. -/
  program : List HostStmt
  /-- The number of the next free value's epoch; the model's own field. -/
  epoch : Nat
deriving DecidableEq, Repr

/-- Right after reset: the values of R49. What R49 calls unspecified has the values that notes/assumptions/5.md names
(DESIGN CHOICE). -/
def State.reset : State :=
  { platform := Platform.reference
    rst := false
    status := { busy := false, done := false, err := false, ign := false, errCode := .none }
    key := 0#32
    srcBase := 0#32
    dstBase := 0#32
    height := 0#16
    width := 0#16
    channels := 3#8
    irqEn := 0#2
    errAddr := 0#32
    op := ⟨.xor, .enc⟩
    disturbed := false
    eng :=
      { prng := Prng.blank
        perm := { epoch := 0, written := [] }
        cp := [0#2, 0#2, 0#2]
        xorStream := { epoch := 0, written := [] }
        noise := { epoch := 0, written := [] }
        stage := { epoch := 0, written := [] } }
    mem := []
    resp := .none
    hostByte := 0#8
    schedule := []
    program := []
    epoch := 1 }

/-- What the state's schedule makes happen next (see `Machine.nextMove`). -/
inductive Move where
  /-- An instruction runs, in the state that has passed its transaction. -/
  | run (i : Instr) (s : State)
  /-- Something other than an instruction happens, with this next state. -/
  | effect (s : State)
  /-- The machine stops with a fault. -/
  | fault (f : Fault)
  /-- The model refuses the move. -/
  | refuse (r : Refusal)

end Sys2Proof.Machine
end

