-- ==== Sys2Proof/Machine/Ops.lean ====
section
/-! DEFINITION. The shared operations on memory, on the ports and on the error fields: reading and writing buffer
bytes, the values that are free, error entry and return (60_exceptions.md R141, R142). -/

namespace Sys2Proof.Machine

/-! ### The buffer memory (R50) -/

/-- What an address that no entry lists reads as. The spec gives buffer memory no reset contents (R49): 0x00 is a
DESIGN CHOICE (unsafe; notes/assumptions/4.md). -/
def Memory.unlisted : Byte := 0#8

/-- `MemRead(a, 1)` (R15). -/
def Memory.read : Memory → Nat → Byte
  | [], _ => Memory.unlisted
  | (b, v) :: m, a => if b = a then v else Memory.read m a

/-- `MemWrite(a, 1, v)` (R15), keeping the canonical form. -/
def Memory.write : Memory → Nat → Byte → Memory
  | [], a, v => if v = Memory.unlisted then [] else [(a, v)]
  | (b, w) :: m, a, v =>
    if a < b then (if v = Memory.unlisted then (b, w) :: m else (a, v) :: (b, w) :: m)
    else if a = b then (if v = Memory.unlisted then m else (a, v) :: m)
    else (b, w) :: Memory.write m a v

/-- The canonical form: addresses strictly rising and inside the 2^32 bytes of R50, no entry equal to what an unlisted
address reads as. -/
def Memory.wf : Memory → Bool
  | [] => true
  | (a, v) :: m => decide (a < 2 ^ 32) && decide (v ≠ Memory.unlisted) && m.all (fun c => decide (a < c.1)) && Memory.wf m

/-- `n` bytes from `base` on, in address order (R51). -/
def Memory.readBytes (m : Memory) (base n : Nat) : List Byte :=
  (List.range n).map fun i => m.read (base + i)

/-- The bytes of a list, stored from `base` on in address order (R51). -/
def Memory.writeBytes : Memory → Nat → List Byte → Memory
  | m, _, [] => m
  | m, base, v :: vs => Memory.writeBytes (m.write base v) (base + 1) vs

/-! ### Internal arrays and free values (R42 to R46) -/

/-- Entry `i` of an internal array. -/
def Store.get {α : Type} (free : Nat → Nat → α) (st : Store α) (i : Nat) : α :=
  st.written.getD i (free st.epoch i)

/-- An internal array of which every entry is unspecified. -/
def Store.unspecified {α : Type} (epoch : Nat) : Store α :=
  { epoch := epoch, written := [] }

/-- `n` bytes that are 'any value' (93 I1, I2, I5). -/
def freeBytes (epoch n : Nat) : List Byte :=
  (List.range n).map fun i => Config.freeByte epoch i

/-- The internal state when no command is running: unspecified throughout (R42 to R46, R83). -/
def Internal.unspecified (epoch : Nat) : Internal :=
  { prng := { mt := (List.range 624).map (Config.freeMt epoch), mti := Config.freeMti epoch % 625 }
    perm := Store.unspecified epoch
    cp := (List.range 3).map (Config.freeCp epoch)
    xorStream := Store.unspecified epoch
    noise := Store.unspecified epoch
    stage := Store.unspecified epoch }

/-- The engine falls back to IDLE: the internal state and `eng.op` become unspecified (R42 to R46). -/
def State.forgetInternals (s : State) : State :=
  { s with eng := Internal.unspecified s.epoch, op := Config.freeOp s.epoch, epoch := s.epoch + 1 }

/-! ### The ports (R48) -/

/-- The register slave port answers. -/
def State.respond (r : Response) (s : State) : State := { s with resp := r }

/-- The schedule after its first move has been taken. -/
def State.withSchedule (es : List Event) (s : State) : State := { s with schedule := es }

/-- The host's program after a statement of it has been taken (R74). -/
def State.withProgram (p : List HostStmt) (s : State) : State := { s with program := p }

/-! ### Error entry and return (R141, R142) -/

/-- An error is raised: ERR and its code; nothing is saved and no control is transferred (R141). -/
def State.raiseError (code : ErrCode) (s : State) : State :=
  { s with status := { s.status with err := true, errCode := code } }

/-- The host acknowledges an error: ERR and ERRCODE are cleared together (R34, R36, R142). -/
def State.clearError (s : State) : State :=
  { s with status := { s.status with err := false, errCode := .none } }

/-- DONE is cleared (R33). -/
def State.clearDone (s : State) : State :=
  { s with status := { s.status with done := false } }

/-- IGN is cleared (R35). -/
def State.clearIgn (s : State) : State :=
  { s with status := { s.status with ign := false } }

/-- A locked write is ignored: IGN is set and nothing else changes (R41). -/
def State.ignoreWrite (s : State) : State :=
  { s with status := { s.status with ign := true } }

end Sys2Proof.Machine
end

