-- ==== Sys2Proof/Machine/Operands.lean ====
section
/-! DEFINITION. The operands of a command, all read from registers (30_encoding.md R70): the key in its readings, the
shape, the two ranges, and the access set (20_memory.md R53, R68). -/

namespace Sys2Proof.Machine

/-- `Key = sint(R[KEY])` (R24, R70). -/
def keyInt (key : Word) : Int := key.toInt

/-- `seed = R[KEY]` (R91). -/
def seedOf (key : Word) : Word := key

/-- `k8 = Key mod 256`, the mathematical residue (R114). -/
def keyResidue (key : Word) : Byte := BitVec.ofNat 8 (keyInt key % 256).toNat

/-- `N = H·W`, the pixel count (R16, R78). -/
def State.pixels (s : State) : Nat := s.height.toNat * s.width.toNat

/-- `LEN = 3·N`, the byte count (R16, R78). -/
def State.len (s : State) : Nat := 3 * s.pixels

/-- The first address of the source range (R25). -/
def State.src (s : State) : Nat := s.srcBase.toNat

/-- The first address of the destination range (R26). -/
def State.dst (s : State) : Nat := s.dstBase.toNat

/-- `a` is in the source range `[SRC_BASE, SRC_BASE + LEN)`. -/
def State.inSource (s : State) (a : Nat) : Bool := decide (s.src ≤ a) && decide (a < s.src + s.len)

/-- `a` is in the destination range `[DST_BASE, DST_BASE + LEN)`. -/
def State.inDest (s : State) (a : Nat) : Bool := decide (s.dst ≤ a) && decide (a < s.dst + s.len)

/-- The LEN source bytes, `src[3p + k] = S(p, k)` (R82). -/
def State.sourceBytes (s : State) : List Byte := s.mem.readBytes s.src s.len

/-- An access belongs to the running command's access set: a read of the source range or a write of the destination
range (R53). -/
def State.inAccessSet (s : State) : Word × AccessDir → Bool
  | (a, .read) => s.inSource a.toNat
  | (a, .write) => s.inDest a.toNat

/-- The accesses of the access set that get an error response (R68, R84). -/
def State.erring (s : State) : List (Word × AccessDir) := s.platform.refused.filter s.inAccessSet

/-- Some access of the access set is never answered (R146, 93 I13). -/
def State.stalls (s : State) : Bool := s.platform.stalled.any s.inAccessSet

end Sys2Proof.Machine
end

