-- ==== Sys2Proof/Machine/Prng.lean ====
section
/-! DEFINITION. The PRNG reseeder and draw unit (41_prng.md): MT19937, masked rejection, the downward shuffle. Every
draw is a function of the generator state alone. -/

namespace Sys2Proof.Machine

/-- `x` itself, given to `k` as a numeral (see `forceWord_eq`): it changes no value, and lets Lean's kernel evaluate a
chain of words one word at a time. -/
def forceWord {α : Type} (x : Word) (k : Word → α) : α :=
  match x.toNat with
  | 0 => k 0#32
  | n + 1 => k (BitVec.ofNat 32 (n + 1))

/-! ### The reseeder (R92) -/

/-- `mt[i], mt[i+1], …` (`count` words) from the word before them (R92). -/
def seedWords : (count i : Nat) → Word → List Word
  | 0, _, _ => []
  | count + 1, i, prev =>
    forceWord (1812433253#32 * (prev ^^^ (prev >>> 30)) + BitVec.ofNat 32 i) fun x => x :: seedWords count (i + 1) x

/-- `Reseed(s)` (R92): a function of the seed alone; it makes no draw. -/
def reseed (seed : Word) : Prng := { mt := seed :: seedWords 623 1 seed, mti := 624 }

/-! ### `Next32` (R93) -/

/-- The new `mt[k]` from `mt[k]`, `mt[(k+1) mod 624]` and `mt[(k+397) mod 624]` (R93). -/
def twistWord (a b c : Word) : Word :=
  let y := (a &&& 0x80000000#32) ||| (b &&& 0x7FFFFFFF#32)
  c ^^^ (y >>> 1) ^^^ (if y &&& 1#32 = 1#32 then 0x9908B0DF#32 else 0#32)

/-- R93's in-place loop from entry `k` on, `count` entries. It is the reference that `twist` is held to
(`Obligations.TwistIsTheInPlaceLoop`). -/
def twistInPlace : (count k : Nat) → List Word → List Word
  | 0, _, mt => mt
  | count + 1, k, mt =>
    twistInPlace count (k + 1)
      (mt.set k (twistWord (mt.getD k 0) (mt.getD ((k + 1) % 624) 0) (mt.getD ((k + 397) % 624) 0)))

/-- New entries from three runs of entries, as many as the shortest run has. -/
def twistRun : List Word → List Word → List Word → List Word
  | a :: as, b :: bs, c :: cs => forceWord (twistWord a b c) fun x => x :: twistRun as bs cs
  | _, _, _ => []

/-- The regeneration of the whole block (R93), in four runs: entries 0..226 take `mt[k+397]` from the old block, entries
227..453 and 454..622 take `mt[k-227]` already rewritten, and entry 623 also takes the rewritten `mt[0]`. -/
def twist (mt : List Word) : List Word :=
  let a := twistRun mt (mt.drop 1) (mt.drop 397)
  let b := twistRun (mt.drop 227) (mt.drop 228) a
  let c := twistRun (mt.drop 454) (mt.drop 455) b
  a ++ b ++ c ++ [twistWord (mt.getD 623 0) (a.getD 0 0) (b.getD 169 0)]

/-- The tempering of an output word (R93). -/
def temper (y0 : Word) : Word :=
  let y1 := y0 ^^^ (y0 >>> 11)
  let y2 := y1 ^^^ ((y1 <<< 7) &&& 0x9D2C5680#32)
  let y3 := y2 ^^^ ((y2 <<< 15) &&& 0xEFC60000#32)
  y3 ^^^ (y3 >>> 18)

/-- The state that `Next32` takes its word from: the block regenerated when it is used up (R93). -/
def refill (g : Prng) : Prng := if g.mti = 624 then { mt := twist g.mt, mti := 0 } else g

/-- `Next32()` (R93). -/
def next32 (g : Prng) : Word × Prng :=
  let g' := refill g
  (temper (g'.mt.getD g'.mti 0), { g' with mti := g'.mti + 1 })

/-- `G(s, i)` (R90): what the call number `i` of `Next32` (from 0) returns, from the state `g` on. -/
def wordAt : Prng → Nat → Word
  | g, 0 => (next32 g).1
  | g, i + 1 => wordAt (next32 g).2 i

/-! ### Draw primitives (R94 to R97) -/

/-- `Mask(v)`: the smallest 2^b − 1 that is at least `v`, by smearing (R94). -/
def maskOf (v : Word) : Word :=
  let m1 := v ||| (v >>> 1)
  let m2 := m1 ||| (m1 >>> 2)
  let m3 := m2 ||| (m2 >>> 4)
  let m4 := m3 ||| (m3 >>> 8)
  m4 ||| (m4 >>> 16)

/-- How many words one masked-rejection loop may reject in the model. R86 says the loop ends and gives no bound; each word is
accepted with probability above 1/2 (R95), so the bound is not met (notes/assumptions/9.md). -/
def drawLimit : Nat := 0xFFFFFFFFFFFFFFFF

/-- The loop of R95 and R96: draw, mask, until the value is at most `max`; a rejected word is consumed. -/
def drawMasked : (limit : Nat) → (mask max : Word) → Prng → Word × Prng
  | 0, _, max, g => (BitVec.ofNat 32 (Config.freeDraw max.toNat % (max.toNat + 1)), g)
  | limit + 1, mask, max, g =>
    let (w, g') := next32 g
    if w &&& mask ≤ max then (w &&& mask, g') else drawMasked limit mask max g'

/-- `Interval(max)` (R95). -/
def interval (max : Word) (g : Prng) : Word × Prng :=
  if max = 0#32 then (0#32, g) else drawMasked drawLimit (maskOf max) max g

/-- `Bounded(lo, hi)` (R96). -/
def bounded (lo hi : Int) (g : Prng) : Int × Prng :=
  let rng : Word := BitVec.ofInt 32 (hi - lo - 1)
  if rng = 0#32 then (lo, g)
  else
    let (v, g') := drawMasked drawLimit (maskOf rng) rng g
    (lo + (v.toNat : Int), g')

/-- `(P[i], P[j]) <- (P[j], P[i])` (R97). -/
def swapEntries (p : List Nat) (i j : Nat) : List Nat := (p.set i (p.getD j 0)).set j (p.getD i 0)

/-- The loop of R97, for i from its first argument down to 1. -/
def shuffleFrom : Nat → List Nat → Prng → List Nat × Prng
  | 0, p, g => (p, g)
  | i + 1, p, g =>
    let (j, g') := interval (BitVec.ofNat 32 (i + 1)) g
    shuffleFrom i (swapEntries p (i + 1) j.toNat) g'

/-- `ShuffleIdentity(n)` (R97). -/
def shuffleIdentity (n : Nat) (g : Prng) : List Nat × Prng := shuffleFrom (n - 1) (List.range n) g

/-- `n` whole words, of which the low byte is kept (R102, R103). -/
def drawBytes : Nat → Prng → List Byte × Prng
  | 0, g => ([], g)
  | n + 1, g =>
    let (w, g') := next32 g
    let (bs, g'') := drawBytes n g'
    (w.setWidth 8 :: bs, g'')

/-- `n` noise values `Bounded(-50, 50)` (R123). -/
def drawNoise : Nat → Prng → List Int × Prng
  | 0, g => ([], g)
  | n + 1, g =>
    let (v, g') := bounded (-50) 50 g
    let (vs, g'') := drawNoise n g'
    (v :: vs, g'')

end Sys2Proof.Machine
end

