-- ==== Sys2Proof/WellFormed.lean ====
section
/-! DEFINITION. Which instructions an encoding exists for. The commands carry no operand, so every command is
well formed; a register access needs an offset that is a multiple of 4 (R55, R69, R76, R77). -/

namespace Sys2Proof

/-- The ALIGN field of R69: address bits [1:0] are 0. -/
def offsetAligned (off : BitVec 6) : Bool := off.extractLsb' 0 2 == 0#2

/-- The well-formed instructions. -/
def Instr.wellFormed : Instr → Bool
  | .xorEnc => true
  | .xorDec => true
  | .swapEnc => true
  | .swapDec => true
  | .mathEnc => true
  | .mathDec => true
  | .shufEnc => true
  | .shufDec => true
  | .rd off => offsetAligned off
  | .wr off _ => offsetAligned off

end Sys2Proof
end

