-- ==== Sys2Proof/Decode.lean ====
section
/-! DEFINITION. The decoder and the encoder of the two formats of 30_encoding.md R69: a register access and a
command word. Both are total; what is not an instruction is rejected by name. -/

namespace Sys2Proof

/-- Why a frame is no instruction. -/
inductive DecodeError where
  /-- A register access of 8 or 16 bits (R55). -/
  | subWord
  /-- A register access without all four byte strobes (R55). -/
  | partialStrobe
  /-- A register access at an offset that is no multiple of 4 (R55, R69). -/
  | misaligned
  /-- A command word with METHOD outside 1..4 (R72). -/
  | invalidMethod
  /-- A command word with a bit of [31:5] set (R72). -/
  | nonzeroHighBits
deriving DecidableEq, Repr

/-- The METHOD field, bits [3:0] of a command word (R69). -/
def methodOfField (m : BitVec 4) : Option Method :=
  if m = 1#4 then some .xor
  else if m = 2#4 then some .swap
  else if m = 3#4 then some .math
  else if m = 4#4 then some .shuffle
  else none

/-- The METHOD field of a method (R69). -/
def Method.field : Method → BitVec 4
  | .xor => 1#4
  | .swap => 2#4
  | .math => 3#4
  | .shuffle => 4#4

/-- The DIR field, bit [4] (R69): 0 = encode, 1 = decode. -/
def dirOfField (d : Bool) : Dir := if d then .dec else .enc

/-- The DIR field of a direction (R69). -/
def Dir.field : Dir → Bool
  | .enc => false
  | .dec => true

/-- METHOD(w) and DIR(w) of a command word, or why the word is invalid (R69, R71, R72). -/
def decodeOp (w : Word) : Except DecodeError Op :=
  if w.extractLsb' 5 27 = 0#27 then
    match methodOfField (w.extractLsb' 0 4) with
    | some m => .ok ⟨m, dirOfField (w.getLsbD 4)⟩
    | none => .error .invalidMethod
  else .error .nonzeroHighBits

/-- The command word of an operation: ZERO ++ DIR ++ METHOD (R69). -/
def Op.word (op : Op) : Word := 0#27 ++ BitVec.ofBool op.dir.field ++ op.method.field

/-- Format CMDW (R69): a command word. -/
def decodeCmdw (w : Word) : Except DecodeError Instr :=
  match decodeOp w with
  | .ok op => .ok op.instr
  | .error e => .error e

/-- Format BUS (R69, R55): a register access is a 32-bit access with all byte strobes at a multiple of 4. -/
def decodeBus (a : BusAccess) : Except DecodeError Instr :=
  if a.size = .word then
    if a.strobe = 15#4 then
      if offsetAligned a.addr then .ok (if a.write then .wr a.addr a.data else .rd a.addr)
      else .error .misaligned
    else .error .partialStrobe
  else .error .subWord

/-- The decoder, total on every frame. -/
def decode : Frame → Except DecodeError Instr
  | .bus a => decodeBus a
  | .cmdw w => decodeCmdw w

/-- The register at a byte offset of the window (R22, R40): OFF is address bits [5:2]. -/
def regAt (off : BitVec 6) : Reg :=
  match (off.extractLsb' 2 4).toNat with
  | 0 => .id
  | 1 => .caps
  | 2 => .cmd
  | 3 => .status
  | 4 => .key
  | 5 => .srcBase
  | 6 => .dstBase
  | 7 => .height
  | 8 => .width
  | 9 => .channels
  | 10 => .irqEn
  | 11 => .errAddr
  | _ => .reserved

/-- The offset of a register (R22); of `reserved`, its first one. -/
def Reg.offset : Reg → BitVec 6
  | .id => 0x00#6
  | .caps => 0x04#6
  | .cmd => 0x08#6
  | .status => 0x0C#6
  | .key => 0x10#6
  | .srcBase => 0x14#6
  | .dstBase => 0x18#6
  | .height => 0x1C#6
  | .width => 0x20#6
  | .channels => 0x24#6
  | .irqEn => 0x28#6
  | .errAddr => 0x2C#6
  | .reserved => 0x30#6

/-- The bus transaction of a register read (R69, R74): RW = 0; a read carries no data. -/
def readAccess (off : BitVec 6) : BusAccess :=
  { write := false, addr := off, size := .word, strobe := 15#4, data := 0#32 }

/-- The bus transaction of a register write (R69, R74): RW = 1. -/
def writeAccess (off : BitVec 6) (data : Word) : BusAccess :=
  { write := true, addr := off, size := .word, strobe := 15#4, data := data }

/-- The encoder: the frame of an instruction (R69, R71). -/
def encode : Instr → Frame
  | .xorEnc => .cmdw (Op.word ⟨.xor, .enc⟩)
  | .xorDec => .cmdw (Op.word ⟨.xor, .dec⟩)
  | .swapEnc => .cmdw (Op.word ⟨.swap, .enc⟩)
  | .swapDec => .cmdw (Op.word ⟨.swap, .dec⟩)
  | .mathEnc => .cmdw (Op.word ⟨.math, .enc⟩)
  | .mathDec => .cmdw (Op.word ⟨.math, .dec⟩)
  | .shufEnc => .cmdw (Op.word ⟨.shuffle, .enc⟩)
  | .shufDec => .cmdw (Op.word ⟨.shuffle, .dec⟩)
  | .rd off => .bus (readAccess off)
  | .wr off data => .bus (writeAccess off data)

/-- A register access as the opcode table numbers its bits: address [5:0] at bits 5..0 and RW at bit 6 (the
table's pattern), then the write data at bits 39..8 (the model's place for it: DESIGN CHOICE,
notes/assumptions/3.md). Bit 7 is no bit of the row and must be 0. -/
def busOfNumber (w : Nat) : Option BusAccess :=
  if w.testBit 7 then none
  else some { write := w.testBit 6, addr := BitVec.ofNat 6 w, size := .word, strobe := 15#4,
              data := BitVec.ofNat 32 (w / 256) }

/-- The frame of a numbered instruction of `nbits` bits: 32 bits are a command word; 7 or 8 bits are a register
access without its data (which is then 0), 40 bits one with its data. -/
def frameOfNumber (nbits w : Nat) : Option Frame :=
  if nbits = 32 then (if w < 2 ^ 32 then some (.cmdw (BitVec.ofNat 32 w)) else none)
  else if nbits = 7 ∨ nbits = 8 ∨ nbits = 40 then
    (if w < 2 ^ nbits then (busOfNumber w).map .bus else none)
  else none

/-- The instruction the decoder reads from a numbered instruction of the opcode table. -/
def decodeTableWord (nbits w : Nat) : Option Instr :=
  match frameOfNumber nbits w with
  | some f => (decode f).toOption
  | none => none

/-- The numbered form of an instruction: how many bits it has and their number (see `busOfNumber`). -/
def encodeNumber : Instr → Nat × Nat
  | .rd off => (8, off.toNat)
  | .wr off data => (40, off.toNat + 64 + 256 * data.toNat)
  | .xorEnc => (32, (Op.word ⟨.xor, .enc⟩).toNat)
  | .xorDec => (32, (Op.word ⟨.xor, .dec⟩).toNat)
  | .swapEnc => (32, (Op.word ⟨.swap, .enc⟩).toNat)
  | .swapDec => (32, (Op.word ⟨.swap, .dec⟩).toNat)
  | .mathEnc => (32, (Op.word ⟨.math, .enc⟩).toNat)
  | .mathDec => (32, (Op.word ⟨.math, .dec⟩).toNat)
  | .shufEnc => (32, (Op.word ⟨.shuffle, .enc⟩).toNat)
  | .shufDec => (32, (Op.word ⟨.shuffle, .dec⟩).toNat)

end Sys2Proof
end

