-- ==== Sys2Proof/Machine/Flags.lean ====
section
/-! DEFINITION. The STATUS word, its write-one-to-clear rule, the interrupt line (10_state.md R32 to R38,
60_exceptions.md R136, R139). -/

namespace Sys2Proof.Machine

/-- The numbers of the error codes (R136). -/
def ErrCode.bits : ErrCode → BitVec 4
  | .none => 0#4
  | .invalidMethod => 1#4
  | .shapeMismatch => 2#4
  | .addrRange => 3#4
  | .overlap => 4#4
  | .capacity => 5#4
  | .busError => 6#4

/-- STATUS as a register read returns it: BUSY, DONE, ERR, IGN in bits 0 to 3, ERRCODE in [7:4] (0 when ERR = 0),
[31:8] zero (R32 to R37). -/
def Status.word (st : Status) : Word :=
  0#24 ++ (if st.err then st.errCode.bits else 0#4) ++ BitVec.ofBool st.ign ++ BitVec.ofBool st.err ++ BitVec.ofBool st.done
    ++ BitVec.ofBool st.busy

/-- A write to STATUS clears each of bits 1, 2, 3 whose written value is 1; with ERR it clears ERRCODE (R33 to R37, R77). -/
def State.writeStatus (d : Word) (s : State) : State :=
  let s1 := if d.getLsbD 1 then s.clearDone else s
  let s2 := if d.getLsbD 2 then s1.clearError else s1
  if d.getLsbD 3 then s2.clearIgn else s2

/-- DONE_IE (R38). -/
def State.doneIe (s : State) : Bool := s.irqEn.getLsbD 0

/-- ERR_IE (R38). -/
def State.errIe (s : State) : Bool := s.irqEn.getLsbD 1

/-- The irq output (R139); 0 while rst is asserted (R151). -/
def State.irq (s : State) : Bool :=
  !s.rst && ((s.status.done && s.doneIe) || (s.status.err && s.errIe))

end Sys2Proof.Machine
end

