-- ==== Sys2Proof/Machine/Sequencer.lean ====
section
/-! DEFINITION. The command sequencer (40_sequencer.md sections 2 and 3): acceptance with its checks, and the two ways
in which a running command ends. -/

namespace Sys2Proof.Machine

/-- Checks 2 to 5 of R79, for a valid command word: the first that fails, `.none` if all pass. The sums are exact. -/
def State.checkOperands (op : Op) (s : State) : ErrCode :=
  if s.channels ≠ 3#8 then .shapeMismatch
  else if 0 < s.len ∧ (2 ^ 32 < s.src + s.len ∨ 2 ^ 32 < s.dst + s.len) then .addrRange
  else if 0 < s.len ∧ s.src < s.dst + s.len ∧ s.dst < s.src + s.len then .overlap
  else if op.method = .swap ∧ ¬ s.pixels ≤ s.platform.permDepth.toNat then .capacity
  else .none

/-- `Check(w, N, LEN)` (R79): the operation to start, or the code of the first failing check. -/
def State.check (w : Word) (s : State) : Except ErrCode Op :=
  match decodeOp w with
  | .error _ => .error .invalidMethod
  | .ok op =>
    match s.checkOperands op with
    | .none => .ok op
    | code => .error code

/-- `Start(w)` (R81): the operation is latched and the sequencer enters RUN. No agent has disturbed it yet (R61). -/
def State.start (op : Op) (s : State) : State :=
  { s with op := op, disturbed := false, status := { s.status with busy := true } }

/-- The first line of `Accept` (R78): DONE, ERR and ERRCODE are cleared, IGN is kept. -/
def State.clearOutcome (s : State) : State := s.clearDone.clearError

/-- `Accept(w)` (R78), with `Fail(code)` (R80) where a check fails. -/
def State.accept (w : Word) (s : State) : State :=
  match s.clearOutcome.check w with
  | .ok op => s.clearOutcome.start op
  | .error code => s.clearOutcome.raiseError code

/-- A write to CMD: accepted or failed while IDLE, ignored while BUSY (R41, R77). -/
def State.writeCommand (w : Word) (s : State) : State :=
  if s.status.busy then s.ignoreWrite else s.accept w

/-- The sequencer leaves RUN (R21). -/
def State.leaveRun (s : State) : State := { s with status := { s.status with busy := false } }

/-- The bytes are stored into the destination range (R67). -/
def State.writeDest (bytes : List Byte) (s : State) : State :=
  { s with mem := s.mem.writeBytes s.dst bytes }

/-- The destination range holds any value (R61, R84, R152). -/
def State.freeDest (s : State) : State := s.writeDest (freeBytes s.epoch s.len)

/-- `EngComplete` (R83): the destination holds the result, or any value if the command was disturbed (R61); then BUSY <- 0,
DONE <- 1, and the internal state is unspecified. -/
def State.complete (result : List Byte) (s : State) : State :=
  let s1 := if s.disturbed then s.freeDest else s.writeDest result
  let s2 := s1.leaveRun.forgetInternals
  { s2 with status := { s2.status with done := true } }

/-- One of several erroring accesses, chosen by a free value (R84, 93 I7); a single one is itself. -/
def pickErring (choice : Nat) (first : Word × AccessDir) : List (Word × AccessDir) → Word
  | [] => first.1
  | second :: rest => ((first :: second :: rest).getD (choice % (rest.length + 2)) first).1

/-- `EngBusError` (R84): ERRADDR <- an erroring address, BUSY <- 0, ERR <- 1, ERRCODE <- 6, and every destination byte is any
value. -/
def State.busErrorEnd (first : Word × AccessDir) (more : List (Word × AccessDir)) (s : State) : State :=
  let s1 := { s.freeDest with errAddr := pickErring (Config.freeChoice s.epoch) first more }
  s1.leaveRun.forgetInternals.raiseError .busError

/-- The ENGINE's move on a running command whose method unit gives `result` (R82 to R84, R89): a bus error if an access of the
access set is refused, no progress if one is never answered (R146), completion otherwise. -/
def State.finish (result : List Byte) (s : State) : State :=
  match s.erring with
  | a :: more => s.busErrorEnd a more
  | [] => if s.stalls then s else s.complete result

end Sys2Proof.Machine
end

