-- ==== Sys2Proof/Machine/Registers.lean ====
section
/-! DEFINITION. The register file and the host's two register operations RD and WR (10_state.md R22 to R41,
40_sequencer.md R76, R77). -/

namespace Sys2Proof.Machine

/-- PXE_ID (R8, R23). -/
def pxeId : Word := 0x50584531#32

/-- The value a read of a register returns (R23 to R40, R76). -/
def State.readReg (s : State) : Reg → Word
  | .id => pxeId
  | .caps => s.platform.permDepth
  | .cmd => 0#32
  | .status => s.status.word
  | .key => s.key
  | .srcBase => s.srcBase
  | .dstBase => s.dstBase
  | .height => s.height.setWidth 32
  | .width => s.width.setWidth 32
  | .channels => s.channels.setWidth 32
  | .irqEn => s.irqEn.setWidth 32
  | .errAddr => s.errAddr
  | .reserved => 0#32

/-- A write to a register that the configuration lock covers (R41). -/
def State.lockedWrite (write : State → State) (s : State) : State :=
  if s.status.busy then s.ignoreWrite else write s

/-- The effect of a register write (R77). -/
def State.writeReg (d : Word) (s : State) : Reg → State
  | .id => s
  | .caps => s
  | .cmd => s.writeCommand d
  | .status => s.writeStatus d
  | .key => s.lockedWrite fun t => { t with key := d }
  | .srcBase => s.lockedWrite fun t => { t with srcBase := d }
  | .dstBase => s.lockedWrite fun t => { t with dstBase := d }
  | .height => s.lockedWrite fun t => { t with height := d.setWidth 16 }
  | .width => s.lockedWrite fun t => { t with width := d.setWidth 16 }
  | .channels => s.lockedWrite fun t => { t with channels := d.setWidth 8 }
  | .irqEn => { s with irqEn := d.setWidth 2 }
  | .errAddr => s
  | .reserved => s

/-- A register access on the slave port: refused by the model while rst is asserted (R151), answered with a bus error and no
effect if it is misaligned (R55), otherwise the access itself. -/
def State.portAccess (off : BitVec 6) (access : State → State) (s : State) : Host.Outcome State Fault Refusal :=
  if s.rst then .refused .registerAccessInReset
  else if offsetAligned off then .next (access s)
  else .next (s.respond .busError)

/-- RD (R76): the port returns the register's value; nothing else changes. -/
def execRd (off : BitVec 6) (s : State) : Host.Outcome State Fault Refusal :=
  s.portAccess off fun t => t.respond (.data (t.readReg (regAt off)))

/-- WR (R77): the write takes effect before the port's response (R159). -/
def execWr (off : BitVec 6) (data : Word) (s : State) : Host.Outcome State Fault Refusal :=
  s.portAccess off fun t => (t.writeReg data (regAt off)).respond .done

/-- A command as an instruction. While it is the running command, it is the ENGINE's move: its method unit gives `result`, and the
command ends as R83 or R84 says. Otherwise its word arrives at CMD (R71, R77): it is accepted or failed while IDLE (R78 to R81),
and ignored while another command runs (R41). While rst is asserted the engine makes no move, and
the access is refused (R151). -/
def State.command (op : Op) (result : List Byte) (s : State) : Host.Outcome State Fault Refusal :=
  if s.status.busy ∧ s.op = op ∧ s.rst = false then .next (s.finish result)
  else s.portAccess Reg.cmd.offset fun t => (t.writeCommand op.word).respond .done

end Sys2Proof.Machine
end

