-- ==== Sys2Proof/Machine/Xor.lean ====
section
/-! DEFINITION. Method xor: the XOR combiner (42_xor.md). -/

namespace Sys2Proof.Machine

/-- The value of each of the 3N samples of a buffer, in C order (R16, R51): sample `a = 3p + k`. -/
def perSample (n : Nat) (f : Nat → Byte) : List Byte := (List.range (3 * n)).map f

/-- `XorUnit(s, r)` (R101). -/
def xorUnit (s r : Byte) : Byte := s ^^^ r

/-- Reseed, then draw the XOR stream `X[0..3N-1]` in C order, one word a sample (R98, R102). -/
def loadXorStream (key : Word) (n : Nat) (e : Internal) : Internal :=
  let (x, g) := drawBytes (3 * n) (reseed (seedOf key))
  { e with prng := g, xorStream := { e.xorStream with written := x } }

/-- The combined samples (R103): `D(p, k) <- XorUnit(S(p, k), X[3p + k])`. -/
def xorCombine (n : Nat) (src : List Byte) (e : Internal) : List Byte :=
  perSample n fun a => xorUnit (src.getD a 0) (e.xorStream.get Config.freeSample a)

/-- `Result` of XOR.ENC (R82, R103). -/
def xorEncResult (key : Word) (n : Nat) (src : List Byte) (e : Internal) : List Byte :=
  xorCombine n src (loadXorStream key n e)

/-- `Result` of XOR.DEC: the same procedure (R104). -/
def xorDecResult (key : Word) (n : Nat) (src : List Byte) (e : Internal) : List Byte :=
  xorCombine n src (loadXorStream key n e)

/-- XOR.ENC (R103). -/
def execXorEnc (s : State) : Host.Outcome State Fault Refusal :=
  s.command ⟨.xor, .enc⟩ (xorEncResult s.key s.pixels s.sourceBytes s.eng)

/-- XOR.DEC (R104). -/
def execXorDec (s : State) : Host.Outcome State Fault Refusal :=
  s.command ⟨.xor, .dec⟩ (xorDecResult s.key s.pixels s.sourceBytes s.eng)

end Sys2Proof.Machine
end

