-- ==== Sys2Proof/Machine/Math.lean ====
section
/-! DEFINITION. Method math: the modular-arithmetic ALU (44_math.md). No draw and no reseed (R98). -/

namespace Sys2Proof.Machine

/-- The mathematical residue of an exact integer modulo 256, as a sample (R13, R115). -/
def residue256 (v : Int) : Byte := BitVec.ofNat 8 (v % 256).toNat

/-- `MathEnc(s) = ((s + Key) mod 256) ^ k8` (R116). -/
def mathEnc (key : Word) (s : Byte) : Byte := residue256 ((s.toNat : Int) + keyInt key) ^^^ keyResidue key

/-- `MathDec(s) = ((s ^ k8) − Key) mod 256` (R117). -/
def mathDec (key : Word) (s : Byte) : Byte := residue256 (((s ^^^ keyResidue key).toNat : Int) - keyInt key)

/-- `Result` of MATH.ENC (R82, R118). -/
def mathEncResult (key : Word) (n : Nat) (src : List Byte) : List Byte :=
  perSample n fun a => mathEnc key (src.getD a 0)

/-- `Result` of MATH.DEC (R82, R119). -/
def mathDecResult (key : Word) (n : Nat) (src : List Byte) : List Byte :=
  perSample n fun a => mathDec key (src.getD a 0)

/-- MATH.ENC (R118). -/
def execMathEnc (s : State) : Host.Outcome State Fault Refusal :=
  s.command ⟨.math, .enc⟩ (mathEncResult s.key s.pixels s.sourceBytes)

/-- MATH.DEC (R119). -/
def execMathDec (s : State) : Host.Outcome State Fault Refusal :=
  s.command ⟨.math, .dec⟩ (mathDecResult s.key s.pixels s.sourceBytes)

end Sys2Proof.Machine
end

