-- ==== Sys2Proof/Machine/Shuffle.lean ====
section
/-! DEFINITION. Method shuffle: the channel-interleave-with-noise unit (45_shuffle.md). -/

namespace Sys2Proof.Machine

/-- `clip(v) = min(max(v, 0), 255)` (R14), as a sample. -/
def clip (v : Int) : Byte := BitVec.ofNat 8 (min (max v 0) 255).toNat

/-- Reseed, then CP, then the noise array in C order, in both directions (R122 to R124). -/
def loadNoise (key : Word) (n : Nat) (e : Internal) : Internal :=
  let (p, g) := shuffleIdentity 3 (reseed (seedOf key))
  let (nz, g') := drawNoise (3 * n) g
  { e with prng := g', cp := p.map (BitVec.ofNat 2), noise := { e.noise with written := nz } }

/-- `CP[k]` as an index. -/
def Internal.cpAt (e : Internal) (k : Nat) : Nat := (e.cp.getD k 0).toNat

/-- `CI[j]`, the k with `CP[k] = j` (R126). -/
def Internal.ciAt (e : Internal) (j : Nat) : Nat := e.cp.idxOf (BitVec.ofNat 2 j)

/-- `NZ[a]` (R123). -/
def Internal.noiseAt (e : Internal) (a : Nat) : Int := e.noise.get Config.freeNoise a

/-- The encode datapath (R125, R127): `clip(S(p, CP[k]) + NZ[3p + k])`. -/
def addNoise (n : Nat) (src : List Byte) (e : Internal) : List Byte :=
  perSample n fun a => clip (((src.getD (3 * (a / 3) + e.cpAt (a % 3)) 0).toNat : Int) + e.noiseAt a)

/-- The staging of pixel `p` (R128, R130): `T[k] <- clip(S(p, k) − NZ[3p + k])`. -/
def stagePixel (src : List Byte) (p : Nat) (e : Internal) : Internal :=
  { e with stage := { e.stage with
      written := (List.range 3).map fun k => clip (((src.getD (3 * p + k) 0).toNat : Int) - e.noiseAt (3 * p + k)) } }

/-- The decode datapath (R128, R130): `D(p, k) <- T[CI[k]]`. -/
def removeNoise (n : Nat) (src : List Byte) (e : Internal) : List Byte :=
  perSample n fun a => (stagePixel src (a / 3) e).stage.get Config.freeSample (e.ciAt (a % 3))

/-- `Result` of SHUF.ENC (R82, R129). -/
def shufEncResult (key : Word) (n : Nat) (src : List Byte) (e : Internal) : List Byte :=
  addNoise n src (loadNoise key n e)

/-- `Result` of SHUF.DEC (R82, R130). -/
def shufDecResult (key : Word) (n : Nat) (src : List Byte) (e : Internal) : List Byte :=
  removeNoise n src (loadNoise key n e)

/-- SHUF.ENC (R129). -/
def execShufEnc (s : State) : Host.Outcome State Fault Refusal :=
  s.command ⟨.shuffle, .enc⟩ (shufEncResult s.key s.pixels s.sourceBytes s.eng)

/-- SHUF.DEC (R130). -/
def execShufDec (s : State) : Host.Outcome State Fault Refusal :=
  s.command ⟨.shuffle, .dec⟩ (shufDecResult s.key s.pixels s.sourceBytes s.eng)

end Sys2Proof.Machine
end

