-- ==== Sys2Proof/Machine/Swap.lean ====
section
/-! DEFINITION. Method swap: the permutation-swap router (43_swap.md). -/

namespace Sys2Proof.Machine

/-- Permutation generation (R107): Reseed, then `PERM[0..N-1] <- ShuffleIdentity(N)`. -/
def generatePerm (key : Word) (n : Nat) (e : Internal) : Internal :=
  let (p, g) := shuffleIdentity n (reseed (seedOf key))
  { e with prng := g, perm := { e.perm with written := p.map (BitVec.ofNat 32) } }

/-- `PERM[i]` as an index. -/
def Internal.permAt (e : Internal) (i : Nat) : Nat := (e.perm.get Config.freePerm i).toNat

/-- The gather of SWAP.ENC (R108): `D(i, k) <- S(PERM[i], k)`. -/
def gatherPixels (n : Nat) (src : List Byte) (e : Internal) : List Byte :=
  perSample n fun a => src.getD (3 * e.permAt (a / 3) + a % 3) 0

/-- The scatter of SWAP.DEC (R109): `D(PERM[i], k) <- S(i, k)`, each destination byte once (R110). -/
def scatterPixels (n : Nat) (src : List Byte) (e : Internal) : List Byte :=
  (List.range (3 * n)).foldl (fun out a => out.set (3 * e.permAt (a / 3) + a % 3) (src.getD a 0)) (List.replicate (3 * n) 0)

/-- `Result` of SWAP.ENC (R82, R108). -/
def swapEncResult (key : Word) (n : Nat) (src : List Byte) (e : Internal) : List Byte :=
  gatherPixels n src (generatePerm key n e)

/-- `Result` of SWAP.DEC (R82, R109). -/
def swapDecResult (key : Word) (n : Nat) (src : List Byte) (e : Internal) : List Byte :=
  scatterPixels n src (generatePerm key n e)

/-- SWAP.ENC (R108). -/
def execSwapEnc (s : State) : Host.Outcome State Fault Refusal :=
  s.command ⟨.swap, .enc⟩ (swapEncResult s.key s.pixels s.sourceBytes s.eng)

/-- SWAP.DEC (R109). -/
def execSwapDec (s : State) : Host.Outcome State Fault Refusal :=
  s.command ⟨.swap, .dec⟩ (swapDecResult s.key s.pixels s.sourceBytes s.eng)

end Sys2Proof.Machine
end

