-- ==== Sys2Proof/Machine/Dispatch.lean ====
section
/-! DEFINITION. One arm per constructor of `Instr`, each a direct call of its meaning. -/

namespace Sys2Proof.Machine

/-- The meaning of an instruction. -/
def exec (i : Instr) (s : State) : Host.Outcome State Fault Refusal :=
  match i with
  | .xorEnc => Sys2Proof.Machine.execXorEnc s
  | .xorDec => Sys2Proof.Machine.execXorDec s
  | .swapEnc => Sys2Proof.Machine.execSwapEnc s
  | .swapDec => Sys2Proof.Machine.execSwapDec s
  | .mathEnc => Sys2Proof.Machine.execMathEnc s
  | .mathDec => Sys2Proof.Machine.execMathDec s
  | .shufEnc => Sys2Proof.Machine.execShufEnc s
  | .shufDec => Sys2Proof.Machine.execShufDec s
  | .rd off => Sys2Proof.Machine.execRd off s
  | .wr off data => Sys2Proof.Machine.execWr off data s

end Sys2Proof.Machine
end

