-- ==== Sys2Proof/Machine/Environment.lean ====
section
/-! DEFINITION. The steps of R89 that no instruction makes: the host's own accesses to buffer memory (HostMem) and
the reset input (70_reset_and_hazards.md R151, R152). -/

namespace Sys2Proof.Machine

/-- `MW` (R74): the host writes one buffer byte on its own path. If the byte is in the source or destination range of a running
command, the command is disturbed (R61, R89). -/
def State.hostWrite (addr : Word) (v : Byte) (s : State) : State :=
  { s with mem := s.mem.write addr.toNat v,
           disturbed := s.disturbed || (s.status.busy && (s.inSource addr.toNat || s.inDest addr.toNat)) }

/-- `MR` (R74): the host reads one buffer byte. A destination byte of a running command reads any value (R61, 93 I6). -/
def State.hostRead (addr : Word) (s : State) : State :=
  if s.status.busy && s.inDest addr.toNat then
    { s with hostByte := Config.freeByte s.epoch 0, epoch := s.epoch + 1 }
  else { s with hostByte := s.mem.read addr.toNat }

/-- A running command is abandoned: each byte of its destination range is any value (R152). -/
def State.abandon (s : State) : State := if s.status.busy then s.freeDest else s

/-- Every register takes its reset value (R49, R151); the internal state is unspecified (R49), and buffer memory is no part of the
block. -/
def State.resetBlock (level : Bool) (s : State) : State :=
  let t := s.abandon
  State.forgetInternals
    { State.reset with
      platform := t.platform, rst := level, eng := t.eng, mem := t.mem, resp := t.resp, hostByte := t.hostByte,
      schedule := t.schedule, program := t.program, epoch := t.epoch }

/-- The reset input is driven to a level (R151). Asserting it resets the block at once; while it is deasserted and was so before,
nothing happens. -/
def State.driveReset (level : Bool) (s : State) : State :=
  if level || s.rst then s.resetBlock level else s

end Sys2Proof.Machine
end

