-- ==== Sys2Proof/Machine/Fetch.lean ====
section
/-! DEFINITION. What happens next: the block fetches no instruction from memory (20_memory.md R64), it is given register
accesses by the host and runs the command it has latched. The schedule says whose move it is (R89). -/

namespace Sys2Proof.Machine

/-- The ENGINE's move: the latched command, while one runs (R45, R81, R89); otherwise nothing (R150). While rst is asserted the
block makes no access (R151). -/
def State.engineMove (s : State) : Move :=
  if s.status.busy && !s.rst then .run s.op.instr s else .effect s

/-- The HOST's bus transaction: only the block's own window is decoded (R22); a transaction that decodes runs as RD or WR; any other
one is refused with a bus error response and no effect (R55). -/
def State.busMove (page : BitVec 26) (a : BusAccess) (s : State) : Move :=
  if page = s.platform.regPage then
    if s.rst then .refuse .registerAccessInReset
    else
      match decodeBus a with
      | .ok i => .run i s
      | .error _ => .effect (s.respond .busError)
  else .fault .outsideRegisterWindow

/-- The test that ends one turn of `WAITIDLE` (R75): bit 0 of the result of the read, which the port has just answered. While it is 1
the loop stays the host's next statement; when it is 0 the loop is over. -/
def State.testBusy (s : State) : State :=
  match s.resp with
  | .data v => if v.getLsbD 0 then s else s.withProgram s.program.tail
  | _ => s

/-- One turn of `WAITIDLE` (R75): `RD STATUS`, then the test of its result. -/
def State.pollIdle (s : State) : Move :=
  match execRd Reg.status.offset s with
  | .next t => .effect t.testBusy
  | .fault f => .fault f
  | .refused r => .refuse r

/-- The HOST's next statement (R74, R75). Its register accesses are transactions on the block's own window. A host whose program is
over does nothing. -/
def State.hostMove (s : State) : Move :=
  match s.program with
  | [] => .effect s
  | .wr r d :: p => (s.withProgram p).busMove s.platform.regPage (writeAccess r.offset d)
  | .rd r :: p => (s.withProgram p).busMove s.platform.regPage (readAccess r.offset)
  | .mw addr v :: p => .effect ((s.withProgram p).hostWrite addr v)
  | .mr addr :: p => .effect ((s.withProgram p).hostRead addr)
  | .waitIdle :: _ => s.pollIdle

/-- The move that the schedule puts next. When no further move is scheduled, a running command still comes to its end (weak
fairness, R86); an idle block stays as it is (R150). -/
def State.nextMove (s : State) : Move :=
  match s.schedule with
  | [] => s.engineMove
  | .bus page a :: rest => (s.withSchedule rest).busMove page a
  | .host :: rest => (s.withSchedule rest).hostMove
  | .engine :: rest => (s.withSchedule rest).engineMove
  | .memWrite addr v :: rest => .effect ((s.withSchedule rest).hostWrite addr v)
  | .memRead addr :: rest => .effect ((s.withSchedule rest).hostRead addr)
  | .rst level :: rest => .effect ((s.withSchedule rest).driveReset level)

/-- A numbered instruction placed where the machine takes its next one. A register access is the next bus transaction. A valid
command word is the command the engine has just accepted (R81), and the engine moves next; an invalid one is a write to CMD. -/
def State.placeFrame (f : Frame) (s : State) : State :=
  match f with
  | .bus a => s.withSchedule (.bus s.platform.regPage a :: s.schedule)
  | .cmdw w =>
    match decodeOp w with
    | .ok op => (s.clearOutcome.start op).withSchedule (.engine :: s.schedule)
    | .error _ => s.withSchedule (.bus s.platform.regPage (writeAccess Reg.cmd.offset w) :: s.schedule)

end Sys2Proof.Machine
end

