-- ==== Sys2Proof/Machine/Step.lean ====
section
/-! DEFINITION. One step: the next move of the schedule (40_sequencer.md R89). -/

namespace Sys2Proof.Machine

/-- One step of the whole machine. -/
def step (s : State) : Host.Outcome State Fault Refusal :=
  match s.nextMove with
  | .run i t => exec i t
  | .effect t => .next t
  | .fault f => .fault f
  | .refuse r => .refused r

/-- `s` with the numbered instruction placed where `step` takes its next instruction. -/
def State.withFetchWord (s : State) (nbits w : Nat) : State :=
  match frameOfNumber nbits w with
  | some f => s.placeFrame f
  | none => s

end Sys2Proof.Machine
end

