-- ==== Sys2Proof/Safety.lean ====
section
/-! DEFINITION. What counts as a safe run, in the words the statements use: the invariant of the machine, the launch
premises of 70_reset_and_hazards.md R161, and what a step leaves unchanged. -/

namespace Sys2Proof.Machine

/-- The states the machine can be in: what the rules say of every instant. -/
structure State.Inv (s : State) : Prop where
  /-- The buffer memory has its canonical form (its 2^32 bytes: R50). -/
  memory : s.mem.wf = true
  /-- At most one of DONE and ERR is 1 (R34). -/
  oneOutcome : ¬(s.status.done = true ∧ s.status.err = true)
  /-- While BUSY, DONE and ERR are 0 (R76). -/
  busyNoOutcome : s.status.busy = true → s.status.done = false ∧ s.status.err = false
  /-- ERRCODE is 0 exactly when ERR is 0 (R36). -/
  codeWithErr : s.status.err = true ↔ s.status.errCode ≠ .none
  /-- A running command has passed every check, and its operands are still those that passed (R41, R79, R81). -/
  accepted : s.status.busy = true → s.checkOperands s.op = .none
  /-- While rst is asserted no command runs (R151). -/
  resetIdle : s.rst = true → s.status.busy = false
  /-- `mt` has its 624 words and `mti` is in 0..624 (R42). -/
  prngShape : s.eng.prng.mt.length = 624 ∧ s.eng.prng.mti ≤ 624
  /-- CP has its three entries (R44). -/
  cpShape : s.eng.cp.length = 3
  /-- PERM_DEPTH is at least 1 (R8). -/
  depth : 1 ≤ s.platform.permDepth.toNat

/-- The register access that the next move puts on the host's bus, with the address bits [31:6]: a scheduled transaction, or that of the
host's next statement (R74, R75). -/
def State.nextAccess (s : State) : Option (BitVec 26 × BusAccess) :=
  match s.schedule, s.program with
  | .bus page a :: _, _ => some (page, a)
  | .host :: _, .wr r d :: _ => some (s.platform.regPage, writeAccess r.offset d)
  | .host :: _, .rd r :: _ => some (s.platform.regPage, readAccess r.offset)
  | .host :: _, .waitIdle :: _ => some (s.platform.regPage, readAccess Reg.status.offset)
  | _, _ => none

/-- The launch premises of R161: the command is running, out of reset, undisturbed, every access of its access set is admitted
and answered. (Ordinary memory, R161 (e), is what the model's memory is.) -/
structure State.Launched (op : Op) (s : State) : Prop where
  busy : s.status.busy = true
  latched : s.op = op
  outOfReset : s.rst = false
  undisturbed : s.disturbed = false
  admitted : s.erring = []
  answered : s.stalls = false

/-- Nothing that the host configures, no platform parameter, no port and no move to come has changed. -/
structure State.SameOutside (s t : State) : Prop where
  platform : t.platform = s.platform
  rst : t.rst = s.rst
  key : t.key = s.key
  srcBase : t.srcBase = s.srcBase
  dstBase : t.dstBase = s.dstBase
  height : t.height = s.height
  width : t.width = s.width
  channels : t.channels = s.channels
  irqEn : t.irqEn = s.irqEn
  resp : t.resp = s.resp
  hostByte : t.hostByte = s.hostByte
  schedule : t.schedule = s.schedule
  program : t.program = s.program

/-- Outside the destination range of `s`, every byte of buffer memory reads as before. -/
def State.OnlyDestChanged (s t : State) : Prop :=
  ∀ a : Nat, s.inDest a = false → t.mem.read a = s.mem.read a

/-- The source sample `S(p, k)` at index `a = 3p + k` (R16). -/
def State.sourceAt (s : State) (a : Nat) : Byte := s.mem.read (s.src + a)

/-- The destination sample at index `a = 3p + k` (R16). -/
def State.destAt (s : State) (a : Nat) : Byte := s.mem.read (s.dst + a)

/-- `t` is what successful completion leaves of `s` (R83): destination sample `a` holds `f a`, no other byte has changed, BUSY is 0
and DONE is 1, and IGN, ERR, ERRCODE, ERRADDR and everything outside are as they were. -/
structure State.CompletedAs (s : State) (f : Nat → Byte) (t : State) : Prop where
  result : ∀ a : Nat, a < s.len → t.mem.read (s.dst + a) = f a
  otherBytes : s.OnlyDestChanged t
  busy : t.status.busy = false
  done : t.status.done = true
  err : t.status.err = s.status.err
  errCode : t.status.errCode = s.status.errCode
  ign : t.status.ign = s.status.ign
  errAddr : t.errAddr = s.errAddr
  disturbed : t.disturbed = s.disturbed
  outside : s.SameOutside t

/-- The state `v` reads, as its source, what `u` has left in its destination, with the same KEY, HEIGHT and WIDTH: premise (f) of
R161 for a round-trip (R17). -/
structure State.ReadsBack (u v : State) : Prop where
  key : v.key = u.key
  height : v.height = u.height
  width : v.width = u.width
  source : ∀ a : Nat, a < u.len → v.sourceAt a = u.destAt a

end Sys2Proof.Machine
end

