-- ==== Sys2Proof/Certificates/Slice0/Obligations.lean ====
section
/-! DEFINITION. The statements for the provers, each citing the rules of spec/ it formalises. Words used below: a command is
LAUNCHED when it is running under the launch premises of R161 (`State.Launched`); `State.Inv` is the invariant that every
step keeps (`Obligations.StepKeepsInv`) and that holds at reset (`Obligations.InvHoldsAtReset`). The fields `schedule`, `program`,
`resp`, `hostByte` and `epoch` are the model's own (notes/assumptions/1.md, 15.md); what a statement says of them is the model's choice. -/

open Sys2Proof Sys2Proof.Machine

/-! ### Encoding (30_encoding.md) -/

/-- Every well-formed instruction is what the decoder reads from its encoding (R69, R71). -/
def Obligations.DecodeOfEncode : Prop :=
  ∀ i : Instr, i.wellFormed = true → decode (encode i) = .ok i

/-- The same for the numbered form of the opcode table, every operand bit included: the eight command words, the seven bits of a
register access, and the 32 data bits of a write (whose place in the number is the model's: notes/assumptions/3.md). -/
def Obligations.DecodeOfNumberedForm : Prop :=
  ∀ i : Instr, i.wellFormed = true → decodeTableWord (encodeNumber i).1 (encodeNumber i).2 = some i

/-- R71, R72: the decoder accepts exactly the eight command words, each as its own command. -/
def Obligations.ExactlyTheEightCommandWords : Prop :=
  ∀ (w : Word) (i : Instr), decodeCmdw w = .ok i ↔
    (w = 0x00000001#32 ∧ i = .xorEnc) ∨ (w = 0x00000011#32 ∧ i = .xorDec) ∨
    (w = 0x00000002#32 ∧ i = .swapEnc) ∨ (w = 0x00000012#32 ∧ i = .swapDec) ∨
    (w = 0x00000003#32 ∧ i = .mathEnc) ∨ (w = 0x00000013#32 ∧ i = .mathDec) ∨
    (w = 0x00000004#32 ∧ i = .shufEnc) ∨ (w = 0x00000014#32 ∧ i = .shufDec)

/-- Words written out from the opcode table: one of each family, and words that are no instruction (R69, R71, R72). (The row of WR gives the write data no bits: that a number without
them reads as data 0 follows from the model's place for the data, a DESIGN CHOICE, notes/assumptions/3.md.) -/
def Obligations.WrittenOutWordsDecode : Prop :=
  decodeTableWord 32 0x00000001 = some .xorEnc ∧ decodeTableWord 32 0x00000012 = some .swapDec ∧
  decodeTableWord 32 0x00000003 = some .mathEnc ∧ decodeTableWord 32 0x00000014 = some .shufDec ∧
  decodeTableWord 8 0b0001100 = some (.rd 0x0C#6) ∧ decodeTableWord 8 0b1010000 = some (.wr 0x10#6 0#32) ∧
  decodeTableWord 32 0x00000005 = none ∧ decodeTableWord 32 0x00000021 = none ∧ decodeTableWord 8 0b0010001 = none

/-! ### One step (40_sequencer.md R89) -/

/-- A step whose next move is a bus transaction to the block's window, out of reset, runs the instruction that the decoder reads
from the transaction, after passing it in the schedule. A step whose next move is the host's runs its statement: `WR` and `RD` are
their instructions, `MW` and `MR` are the host's own write and read of a buffer byte, whatever the reset input is (R74), and one turn of
`WAITIDLE` reads STATUS and repeats while bit 0 of the result is 1 (R75); a host whose program is over does nothing. (That a schedule and
a program stand in the state is the model's choice: notes/assumptions/1.md.) -/
def Obligations.StepRunsTheDecodedTransaction : Prop :=
  (∀ (s : State) (page : BitVec 26) (a : BusAccess) (rest : List Event) (i : Instr),
    s.schedule = .bus page a :: rest → page = s.platform.regPage → s.rst = false → decode (.bus a) = .ok i →
      step s = exec i { s with schedule := rest }) ∧
  (∀ (s : State) (rest : List Event) (p : List HostStmt), s.schedule = .host :: rest → s.rst = false →
    (∀ (r : Reg) (d : Word), s.program = .wr r d :: p → step s = exec (.wr r.offset d) { s with schedule := rest, program := p }) ∧
    (∀ r : Reg, s.program = .rd r :: p → step s = exec (.rd r.offset) { s with schedule := rest, program := p }) ∧
    (s.program = .waitIdle :: p → step s = .next { s with
      schedule := rest, program := if s.status.word.getLsbD 0 then .waitIdle :: p else p, resp := .data s.status.word })) ∧
  (∀ (s : State) (rest : List Event) (p : List HostStmt), s.schedule = .host :: rest →
    (∀ (addr : Word) (v : Byte), s.program = .mw addr v :: p →
      step s = .next (State.hostWrite addr v { s with schedule := rest, program := p })) ∧
    (∀ addr : Word, s.program = .mr addr :: p →
      step s = .next (State.hostRead addr { s with schedule := rest, program := p })) ∧
    (s.program = [] → step s = .next { s with schedule := rest }))

/-- A step whose next move is the engine's runs the latched command, whose word decodes to it; so does a step with no move left in
the schedule, while a command runs (R81, R86; the last part is the model's reading of weak fairness, notes/assumptions/1.md). -/
def Obligations.StepRunsTheLatchedCommand : Prop :=
  ∀ (s : State) (i : Instr), s.status.busy = true → s.rst = false → decode (.cmdw s.op.word) = .ok i →
    (∀ rest : List Event, s.schedule = .engine :: rest → step s = exec i { s with schedule := rest }) ∧
    (s.schedule = [] → step s = exec i s)

/-- R150: while IDLE the engine's turn changes nothing but the schedule, and with nothing scheduled the state stays as it is. -/
def Obligations.IdleEngineIsQuiescent : Prop :=
  ∀ s : State, s.status.busy = false →
    (∀ rest : List Event, s.schedule = .engine :: rest → step s = .next { s with schedule := rest }) ∧
    (s.schedule = [] → step s = .next s)

/-- R55, R137: a register access that is not 32 bits wide, lacks a byte strobe or is misaligned is answered with a bus error
response, and no register changes. (That the run goes on after the response is the model's reading of 'faults the host step':
notes/assumptions/6.md.) -/
def Obligations.RefusedRegisterAccessChangesNothing : Prop :=
  ∀ (s : State) (page : BitVec 26) (a : BusAccess) (rest : List Event),
    s.schedule = .bus page a :: rest → page = s.platform.regPage → s.rst = false →
    (a.size ≠ .word ∨ a.strobe ≠ 15#4 ∨ a.addr.extractLsb' 0 2 ≠ 0#2) →
      step s = .next { s with schedule := rest, resp := .busError }

/-! ### Reset and the invariant -/

/-- R49: the values that the reset table gives, and what the registers then read; and that reset is over (`rst` is low: the model's
choice of the instant, notes/assumptions/19.md). -/
def Obligations.ResetStateHasTheTableValues : Prop :=
  State.reset.readReg .id = 0x50584531#32 ∧ State.reset.readReg .caps = State.reset.platform.permDepth ∧
  State.reset.readReg .status = 0#32 ∧ State.reset.key = 0#32 ∧ State.reset.srcBase = 0#32 ∧ State.reset.dstBase = 0#32 ∧
  State.reset.height = 0#16 ∧ State.reset.width = 0#16 ∧ State.reset.channels = 3#8 ∧ State.reset.irqEn = 0#2 ∧
  State.reset.errAddr = 0#32 ∧ State.reset.irq = false ∧ State.reset.status.busy = false ∧ State.reset.rst = false

/-- The invariant holds at reset. (Its clauses on `mt`, `mti` and CP, which R49 leaves unspecified, and on PERM_DEPTH rest on the values
the model names: notes/assumptions/2.md, 5.md.) -/
def Obligations.InvHoldsAtReset : Prop := State.reset.Inv

/-- Every step keeps the invariant: memory canonical, at most one of DONE and ERR, none while BUSY, ERRCODE with ERR, the running
command's operands still pass every check, no command in reset, the PRNG and CP in shape (R8, R34, R36, R41, R42, R44, R76, R151). -/
def Obligations.StepKeepsInv : Prop :=
  ∀ s t : State, s.Inv → step s = .next t → t.Inv

/-- R21: IDLE moves to RUN only through acceptance of a valid command: the step was a write, to CMD, of a word that decodes to the
command then latched and whose checks all pass. -/
def Obligations.RunIsEnteredOnlyByAcceptance : Prop :=
  ∀ s t : State, s.status.busy = false → step s = .next t → t.status.busy = true →
    ∃ a : BusAccess, s.nextAccess = some (s.platform.regPage, a) ∧ a.write = true ∧ regAt a.addr = .cmd ∧
      decodeBus a = .ok (.wr a.addr a.data) ∧ decodeOp a.data = .ok t.op ∧ s.checkOperands t.op = .none

/-- R21: RUN moves to IDLE only through completion (DONE), a bus error (ERR with code 6) or reset. -/
def Obligations.RunIsLeftOnlyByItsThreeEnds : Prop :=
  ∀ s t : State, s.Inv → s.status.busy = true → step s = .next t → t.status.busy = false →
    (s.erring = [] ∧ t.status.done = true ∧ t.status.err = false) ∨
    (s.erring ≠ [] ∧ t.status.done = false ∧ t.status.err = true ∧ t.status.errCode = .busError) ∨
    (∃ rest : List Event, s.schedule = .rst true :: rest ∧ t.rst = true)

/-- R41, the configuration lock: while BUSY a write to KEY, SRC_BASE, DST_BASE, HEIGHT, WIDTH, CHANNELS or CMD only sets IGN; writes
to STATUS and IRQ_EN take effect; and no step between acceptance and the command's end changes a configuration register. -/
def Obligations.ConfigurationLock : Prop :=
  (∀ (s : State) (off : BitVec 6) (d : Word), s.status.busy = true → s.rst = false →
    off ∈ [0x08#6, 0x10#6, 0x14#6, 0x18#6, 0x1C#6, 0x20#6, 0x24#6] →
      exec (.wr off d) s = .next { s with status := { s.status with ign := true }, resp := .done }) ∧
  (∀ (s : State) (d : Word), s.status.busy = true → s.rst = false →
    exec (.wr 0x28#6 d) s = .next { s with irqEn := d.setWidth 2, resp := .done } ∧
    exec (.wr 0x0C#6 d) s = .next { s with
      status :=
        { busy := true
          done := s.status.done && !d.getLsbD 1
          err := s.status.err && !d.getLsbD 2
          ign := s.status.ign && !d.getLsbD 3
          errCode := if d.getLsbD 2 then .none else s.status.errCode }
      resp := .done }) ∧
  (∀ s t : State, s.Inv → s.status.busy = true → step s = .next t → t.status.busy = true →
    t.key = s.key ∧ t.srcBase = s.srcBase ∧ t.dstBase = s.dstBase ∧ t.height = s.height ∧ t.width = s.width ∧
    t.channels = s.channels ∧ t.op = s.op)

/-- R39: only a bus error changes ERRADDR (or reset): a step that changes it ends a command with an erring access, or resets. -/
def Obligations.OnlyBusErrorWritesErrAddr : Prop :=
  ∀ s t : State, step s = .next t → t.errAddr ≠ s.errAddr →
    (s.status.busy = true ∧ s.erring ≠ [] ∧ t.status.errCode = .busError) ∨
    (∃ (level : Bool) (rest : List Event), s.schedule = .rst level :: rest ∧ t.errAddr = 0#32)

/-! ### Register reads and writes -/

/-- R76: a register read returns the register's value and changes nothing else; CMD returns 0. (The four reserved
offsets: `ReservedOffsets`.) -/
def Obligations.ReadReturnsTheRegister : Prop :=
  ∀ s : State, s.rst = false →
    exec (.rd 0x00#6) s = .next { s with resp := .data 0x50584531#32 } ∧
    exec (.rd 0x04#6) s = .next { s with resp := .data s.platform.permDepth } ∧
    exec (.rd 0x08#6) s = .next { s with resp := .data 0#32 } ∧
    exec (.rd 0x0C#6) s = .next { s with resp := .data s.status.word } ∧
    exec (.rd 0x10#6) s = .next { s with resp := .data s.key } ∧
    exec (.rd 0x14#6) s = .next { s with resp := .data s.srcBase } ∧
    exec (.rd 0x18#6) s = .next { s with resp := .data s.dstBase } ∧
    exec (.rd 0x1C#6) s = .next { s with resp := .data (s.height.setWidth 32) } ∧
    exec (.rd 0x20#6) s = .next { s with resp := .data (s.width.setWidth 32) } ∧
    exec (.rd 0x24#6) s = .next { s with resp := .data (s.channels.setWidth 32) } ∧
    exec (.rd 0x28#6) s = .next { s with resp := .data (s.irqEn.setWidth 32) } ∧
    exec (.rd 0x2C#6) s = .next { s with resp := .data s.errAddr }

/-- R40: the four reserved offsets read 0, and a write to one is ignored without setting IGN. -/
def Obligations.ReservedOffsets : Prop :=
  ∀ (s : State) (off : BitVec 6) (d : Word), s.rst = false → off ∈ [0x30#6, 0x34#6, 0x38#6, 0x3C#6] →
    exec (.rd off) s = .next { s with resp := .data 0#32 } ∧ exec (.wr off d) s = .next { s with resp := .done }

/-- R23, R30, R39, R77: a write to ID, CAPS or ERRADDR is ignored and does not set IGN, while IDLE or BUSY. -/
def Obligations.ReadOnlyRegistersIgnoreWrites : Prop :=
  ∀ (s : State) (off : BitVec 6) (d : Word), s.rst = false → off ∈ [0x00#6, 0x04#6, 0x2C#6] →
    exec (.wr off d) s = .next { s with resp := .done }

/-- R32 to R37, R136: where each field of STATUS stands in the word that a read returns. -/
def Obligations.StatusWordLayout : Prop :=
  ∀ st : Status,
    st.word.getLsbD 0 = st.busy ∧ st.word.getLsbD 1 = st.done ∧ st.word.getLsbD 2 = st.err ∧ st.word.getLsbD 3 = st.ign ∧
    st.word.extractLsb' 8 24 = 0#24 ∧
    (st.err = false → st.word.extractLsb' 4 4 = 0#4) ∧
    (st.err = true →
      (st.errCode = .invalidMethod → st.word.extractLsb' 4 4 = 1#4) ∧
      (st.errCode = .shapeMismatch → st.word.extractLsb' 4 4 = 2#4) ∧
      (st.errCode = .addrRange → st.word.extractLsb' 4 4 = 3#4) ∧
      (st.errCode = .overlap → st.word.extractLsb' 4 4 = 4#4) ∧
      (st.errCode = .capacity → st.word.extractLsb' 4 4 = 5#4) ∧
      (st.errCode = .busError → st.word.extractLsb' 4 4 = 6#4))

/-- R24 to R29, R77: while IDLE a write to a configuration register stores the bits that the register has, and nothing else. -/
def Obligations.IdleConfigurationWrites : Prop :=
  ∀ (s : State) (d : Word), s.status.busy = false → s.rst = false →
    exec (.wr 0x10#6 d) s = .next { s with key := d, resp := .done } ∧
    exec (.wr 0x14#6 d) s = .next { s with srcBase := d, resp := .done } ∧
    exec (.wr 0x18#6 d) s = .next { s with dstBase := d, resp := .done } ∧
    exec (.wr 0x1C#6 d) s = .next { s with height := d.setWidth 16, resp := .done } ∧
    exec (.wr 0x20#6 d) s = .next { s with width := d.setWidth 16, resp := .done } ∧
    exec (.wr 0x24#6 d) s = .next { s with channels := d.setWidth 8, resp := .done }

/-- R33 to R37, R77: a write to STATUS clears each of DONE, ERR (with ERRCODE) and IGN whose bit is written 1, and nothing else; BUSY
is read-only. It is accepted while BUSY. -/
def Obligations.StatusWriteOneToClear : Prop :=
  ∀ (s : State) (d : Word), s.rst = false →
    exec (.wr 0x0C#6 d) s = .next { s with
      status :=
        { busy := s.status.busy
          done := s.status.done && !d.getLsbD 1
          err := s.status.err && !d.getLsbD 2
          ign := s.status.ign && !d.getLsbD 3
          errCode := if d.getLsbD 2 then .none else s.status.errCode }
      resp := .done }

/-- R38, R139, R140: a write to IRQ_EN stores its two bits, and irq follows at once from the pending bits. -/
def Obligations.InterruptEnableWrite : Prop :=
  ∀ (s : State) (d : Word), s.rst = false →
    ∃ t, exec (.wr 0x28#6 d) s = .next t ∧ t = { s with irqEn := d.setWidth 2, resp := .done } ∧
      t.irq = ((s.status.done && d.getLsbD 0) || (s.status.err && d.getLsbD 1))

/-- R139: irq at every instant out of reset; IGN raises none. -/
def Obligations.InterruptLine : Prop :=
  ∀ s : State, s.rst = false →
    s.irq = ((s.status.done && s.irqEn.getLsbD 0) || (s.status.err && s.irqEn.getLsbD 1)) ∧ s.ignoreWrite.irq = s.irq

/-- R55: a register operation at an offset that is no multiple of 4 gets a bus error response and has no effect. (That the run goes on
after the response is the model's reading: notes/assumptions/6.md.) -/
def Obligations.MisalignedOperation : Prop :=
  ∀ (s : State) (off : BitVec 6) (d : Word), s.rst = false → off.extractLsb' 0 2 ≠ 0#2 →
    exec (.rd off) s = .next { s with resp := .busError } ∧ exec (.wr off d) s = .next { s with resp := .busError }

/-- R151: while rst is asserted every instruction is refused by the model, as the rule asks of a register access. (That a command, as an
instruction, is such an access there is the model's choice: notes/assumptions/7.md, 14.md.) -/
def Obligations.InstructionsAreRefusedInReset : Prop :=
  ∀ (i : Instr) (s : State), s.rst = true → exec i s = .refused .registerAccessInReset

/-! ### Acceptance (R78 to R81) -/

/-- R79: the code that a command word written while IDLE gets, the first condition that holds in the order of the table; 0 when all
pass, and then (and only then) the command runs. The sums are exact. -/
def Obligations.AcceptanceChecksInOrder : Prop :=
  ∀ (s : State) (w : Word), s.status.busy = false → s.rst = false →
    ∃ t, exec (.wr 0x08#6 w) s = .next t ∧
      t.status.errCode =
        (if w ∉ [0x01#32, 0x11#32, 0x02#32, 0x12#32, 0x03#32, 0x13#32, 0x04#32, 0x14#32] then .invalidMethod
        else if s.channels.toNat ≠ 3 then .shapeMismatch
        else if 3 * (s.height.toNat * s.width.toNat) > 0 ∧
            (s.srcBase.toNat + 3 * (s.height.toNat * s.width.toNat) > 2 ^ 32 ∨
              s.dstBase.toNat + 3 * (s.height.toNat * s.width.toNat) > 2 ^ 32) then .addrRange
        else if 3 * (s.height.toNat * s.width.toNat) > 0 ∧
            s.srcBase.toNat < s.dstBase.toNat + 3 * (s.height.toNat * s.width.toNat) ∧
            s.dstBase.toNat < s.srcBase.toNat + 3 * (s.height.toNat * s.width.toNat) then .overlap
        else if w ∈ [0x02#32, 0x12#32] ∧ s.height.toNat * s.width.toNat > s.platform.permDepth.toNat then .capacity
        else .none) ∧
      (t.status.busy = true ↔ t.status.errCode = .none) ∧ (t.status.err = true ↔ t.status.errCode ≠ .none)

/-- R78, R81: an accepted command is latched and the sequencer enters RUN; DONE, ERR and ERRCODE are cleared, IGN is kept, and
nothing else changes. -/
def Obligations.AcceptedCommandStarts : Prop :=
  ∀ (s : State) (op : Op), s.status.busy = false → s.rst = false → s.checkOperands op = .none →
    exec (.wr 0x08#6 op.word) s = .next { s with
      op := op, disturbed := false, resp := .done,
      status := { busy := true, done := false, err := false, ign := s.status.ign, errCode := .none } }

/-- R80, R141: a rejected command is precise: DONE is cleared, ERR and its code are set, and nothing else changes (no buffer byte, no
PRNG state, no ERRADDR). -/
def Obligations.RejectionIsPrecise : Prop :=
  ∀ (s : State) (w : Word) (code : ErrCode), s.status.busy = false → s.rst = false → s.check w = .error code →
    exec (.wr 0x08#6 w) s = .next { s with
      resp := .done, status := { busy := false, done := false, err := true, ign := s.status.ign, errCode := code } }

/-- R71, R77: a command as an instruction, where it is not the running command, is its word written to CMD. (That the command's meaning
covers its arrival as well as its execution is the model's: notes/assumptions/7.md.) -/
def Obligations.CommandArrivesAsItsWord : Prop :=
  ∀ (s : State) (op : Op), ¬(s.status.busy = true ∧ s.op = op) → exec op.instr s = exec (.wr 0x08#6 op.word) s

/-! ### The commands' results -/

/-- R101 to R104: a launched XOR.ENC or XOR.DEC completes; destination sample `a` is the source sample XORed with the low byte of word
number `a` after Reseed(KEY), BUSY and DONE change as R83 says, and no other byte, register or flag changes. -/
def Obligations.XorCommandsComplete : Prop :=
  (∀ s : State, s.Inv → s.Launched ⟨.xor, .enc⟩ → ∃ t, exec .xorEnc s = .next t ∧
    s.CompletedAs (fun a => s.sourceAt a ^^^ (wordAt (reseed s.key) a).setWidth 8) t) ∧
  (∀ s : State, s.Inv → s.Launched ⟨.xor, .dec⟩ → ∃ t, exec .xorDec s = .next t ∧
    s.CompletedAs (fun a => s.sourceAt a ^^^ (wordAt (reseed s.key) a).setWidth 8) t)

/-- R116, R118: a launched MATH.ENC completes with `((S + Key) mod 256) ^ k8` in each sample, on exact integers. -/
def Obligations.MathEncCompletes : Prop :=
  ∀ s : State, s.Inv → s.Launched ⟨.math, .enc⟩ → ∃ t, exec .mathEnc s = .next t ∧
    s.CompletedAs (fun a =>
      BitVec.ofNat 8 (((s.sourceAt a).toNat + s.key.toInt) % 256).toNat ^^^ BitVec.ofNat 8 (s.key.toInt % 256).toNat) t

/-- R117, R119: a launched MATH.DEC completes with `((S ^ k8) − Key) mod 256`, the mathematical residue. -/
def Obligations.MathDecCompletes : Prop :=
  ∀ s : State, s.Inv → s.Launched ⟨.math, .dec⟩ → ∃ t, exec .mathDec s = .next t ∧
    s.CompletedAs (fun a =>
      BitVec.ofNat 8 (((s.sourceAt a ^^^ BitVec.ofNat 8 (s.key.toInt % 256).toNat).toNat - s.key.toInt) % 256).toNat) t

/-- R108: a launched SWAP.ENC completes with `output[i] = input[P[i]]`, P the shuffle of the identity after Reseed(KEY). -/
def Obligations.SwapEncCompletes : Prop :=
  ∀ s : State, s.Inv → s.Launched ⟨.swap, .enc⟩ → ∃ t, exec .swapEnc s = .next t ∧
    s.CompletedAs (fun a => s.sourceAt (3 * (shuffleIdentity s.pixels (reseed s.key)).1.getD (a / 3) 0 + a % 3)) t

/-- R109, R110: a launched SWAP.DEC completes with `output[P[i]] = input[i]`, which is `output[j] = input[P⁻¹[j]]`. -/
def Obligations.SwapDecCompletes : Prop :=
  ∀ s : State, s.Inv → s.Launched ⟨.swap, .dec⟩ → ∃ t, exec .swapDec s = .next t ∧
    s.CompletedAs (fun a => s.sourceAt (3 * (shuffleIdentity s.pixels (reseed s.key)).1.idxOf (a / 3) + a % 3)) t ∧
    ∀ i k : Nat, i < s.pixels → k < 3 →
      t.mem.read (s.dst + (3 * (shuffleIdentity s.pixels (reseed s.key)).1.getD i 0 + k)) = s.sourceAt (3 * i + k)

/-- R122 to R127, R129: a launched SHUF.ENC completes with `clip(S(p, CP[k]) + NZ[3p + k])`; CP is drawn first, then the noise. -/
def Obligations.ShufEncCompletes : Prop :=
  ∀ s : State, s.Inv → s.Launched ⟨.shuffle, .enc⟩ → ∃ t, exec .shufEnc s = .next t ∧
    s.CompletedAs (fun a =>
      clip ((s.sourceAt (3 * (a / 3) + (shuffleIdentity 3 (reseed s.key)).1.getD (a % 3) 0)).toNat +
        (drawNoise s.len (shuffleIdentity 3 (reseed s.key)).2).1.getD a 0)) t

/-- R122 to R124, R126, R128, R130: a launched SHUF.DEC completes with `T(p, CI[k])`, where `T(p, j) = clip(S(p, j) − NZ[3p + j])` and CI is
the inverse of CP. -/
def Obligations.ShufDecCompletes : Prop :=
  ∀ s : State, s.Inv → s.Launched ⟨.shuffle, .dec⟩ → ∃ t, exec .shufDec s = .next t ∧
    s.CompletedAs (fun a =>
      let j := 3 * (a / 3) + (shuffleIdentity 3 (reseed s.key)).1.idxOf (a % 3)
      clip ((s.sourceAt j).toNat - (drawNoise s.len (shuffleIdentity 3 (reseed s.key)).2).1.getD j 0)) t

/-- R85: with H = 0 or W = 0 a running command completes with DONE, and buffer memory is as it was. -/
def Obligations.EmptyBufferCompletes : Prop :=
  ∀ (s : State) (op : Op), s.status.busy = true → s.op = op → s.rst = false → s.height = 0#16 ∨ s.width = 0#16 →
    ∃ t, exec op.instr s = .next t ∧ t.mem = s.mem ∧ t.status.busy = false ∧ t.status.done = true ∧ t.errAddr = s.errAddr

/-- R18: the destination bytes are a function of the command, KEY, HEIGHT, WIDTH and the source bytes: two launched runs that agree on
these agree on the destination, whatever their PRNG state, earlier commands and other registers are. -/
def Obligations.ResultDependsOnlyOnItsFiveInputs : Prop :=
  ∀ (op : Op) (s s' : State), s.Inv → s'.Inv → s.Launched op → s'.Launched op →
    s'.key = s.key → s'.height = s.height → s'.width = s.width → (∀ a : Nat, a < s.len → s'.sourceAt a = s.sourceAt a) →
    ∃ t t', exec op.instr s = .next t ∧ exec op.instr s' = .next t' ∧
      ∀ a : Nat, a < s.len → t'.mem.read (s'.dst + a) = t.mem.read (s.dst + a)

/-- R111: a swap command moves pixels whole: the destination's pixels, each with its three samples in order, are a permutation of the
source's. -/
def Obligations.SwapMovesPixelsWhole : Prop :=
  ∀ (s : State) (d : Dir), s.Inv → s.Launched ⟨.swap, d⟩ → ∃ t, exec (Op.instr ⟨.swap, d⟩) s = .next t ∧
    ((List.range s.pixels).map fun p => (t.destAt (3 * p), t.destAt (3 * p + 1), t.destAt (3 * p + 2))).Perm
      ((List.range s.pixels).map fun p => (s.sourceAt (3 * p), s.sourceAt (3 * p + 1), s.sourceAt (3 * p + 2)))

/-! ### Round-trips (R17) -/

/-- R105: XOR.ENC, then XOR.DEC or XOR.ENC again on its destination, restores the source, for every buffer and every key. -/
def Obligations.XorRoundTrip : Prop :=
  ∀ u : State, u.Inv → u.Launched ⟨.xor, .enc⟩ → ∃ t, exec .xorEnc u = .next t ∧
    ∀ v : State, v.Inv → t.ReadsBack v →
      (v.Launched ⟨.xor, .dec⟩ → ∃ w, exec .xorDec v = .next w ∧ ∀ a : Nat, a < u.len → w.destAt a = u.sourceAt a) ∧
      (v.Launched ⟨.xor, .enc⟩ → ∃ w, exec .xorEnc v = .next w ∧ ∀ a : Nat, a < u.len → w.destAt a = u.sourceAt a)

/-- R113: SWAP.ENC, then SWAP.DEC on its destination, restores the source. -/
def Obligations.SwapRoundTrip : Prop :=
  ∀ u : State, u.Inv → u.Launched ⟨.swap, .enc⟩ → ∃ t, exec .swapEnc u = .next t ∧
    ∀ v : State, v.Inv → t.ReadsBack v → v.Launched ⟨.swap, .dec⟩ →
      ∃ w, exec .swapDec v = .next w ∧ ∀ a : Nat, a < u.len → w.destAt a = u.sourceAt a

/-- R120: MathDec undoes MathEnc, MathEnc is a bijection on 0..255, and MATH.ENC, then MATH.DEC on its destination, restores the
source. -/
def Obligations.MathRoundTrip : Prop :=
  (∀ (key : Word) (x : Byte), mathDec key (mathEnc key x) = x) ∧ (∀ key : Word, Function.Bijective (mathEnc key)) ∧
  ∀ u : State, u.Inv → u.Launched ⟨.math, .enc⟩ → ∃ t, exec .mathEnc u = .next t ∧
    ∀ v : State, v.Inv → t.ReadsBack v → v.Launched ⟨.math, .dec⟩ →
      ∃ w, exec .mathDec v = .next w ∧ ∀ a : Nat, a < u.len → w.destAt a = u.sourceAt a

/-- R132: after SHUF.ENC, then SHUF.DEC on its destination, sample j of pixel p is restored if and only if its noisy sum
stayed in 0..255; so every sample in 50..206 is, and below 50 and above 206 it depends on the noise. -/
def Obligations.ShuffleExactRoundTripCondition : Prop :=
  (∀ u : State, u.Inv → u.Launched ⟨.shuffle, .enc⟩ → ∃ t, exec .shufEnc u = .next t ∧
    ∀ v : State, v.Inv → t.ReadsBack v → v.Launched ⟨.shuffle, .dec⟩ → ∃ w, exec .shufDec v = .next w ∧
      ∀ p j : Nat, p < u.pixels → j < 3 →
        let k := (shuffleIdentity 3 (reseed u.key)).1.idxOf j
        let noise := (drawNoise u.len (shuffleIdentity 3 (reseed u.key)).2).1.getD (3 * p + k) 0
        (w.destAt (3 * p + j) = u.sourceAt (3 * p + j) ↔
          0 ≤ (u.sourceAt (3 * p + j)).toNat + noise ∧ (u.sourceAt (3 * p + j)).toNat + noise ≤ 255) ∧
        (50 ≤ (u.sourceAt (3 * p + j)).toNat ∧ (u.sourceAt (3 * p + j)).toNat ≤ 206 →
          w.destAt (3 * p + j) = u.sourceAt (3 * p + j))) ∧
  (∀ x : Int, (0 ≤ x ∧ x < 50) ∨ (206 < x ∧ x ≤ 255) →
    (∃ n : Int, -50 ≤ n ∧ n ≤ 49 ∧ 0 ≤ x + n ∧ x + n ≤ 255) ∧ (∃ n : Int, -50 ≤ n ∧ n ≤ 49 ∧ ¬(0 ≤ x + n ∧ x + n ≤ 255)))

/-- R133: where the sum left 0..255 the restored sample is off by the stated amount, and never by more than 50. -/
def Obligations.ShuffleDeviationBound : Prop :=
  ∀ u : State, u.Inv → u.Launched ⟨.shuffle, .enc⟩ → ∃ t, exec .shufEnc u = .next t ∧
    ∀ v : State, v.Inv → t.ReadsBack v → v.Launched ⟨.shuffle, .dec⟩ → ∃ w, exec .shufDec v = .next w ∧
      ∀ p j : Nat, p < u.pixels → j < 3 →
        let k := (shuffleIdentity 3 (reseed u.key)).1.idxOf j
        let noise := (drawNoise u.len (shuffleIdentity 3 (reseed u.key)).2).1.getD (3 * p + k) 0
        let x : Int := (u.sourceAt (3 * p + j)).toNat
        let d : Int := (w.destAt (3 * p + j)).toNat - x
        (x + noise < 0 → d = -noise - x ∧ 1 ≤ d ∧ d ≤ 50) ∧
        (255 < x + noise → d = 255 - noise - x ∧ -49 ≤ d ∧ d ≤ -1) ∧ -50 ≤ d ∧ d ≤ 50

/-- R114, R115: k8 is KEY[7:0] for every register value, and an 8-bit adder with its carry dropped computes both directions. -/
def Obligations.MathEightBitDatapath : Prop :=
  ∀ (key : Word) (x : Byte), keyResidue key = key.extractLsb' 0 8 ∧
    mathEnc key x = (x + key.extractLsb' 0 8) ^^^ key.extractLsb' 0 8 ∧
    mathDec key x = (x ^^^ key.extractLsb' 0 8) - key.extractLsb' 0 8

/-! ### Errors while running, races, reset -/

/-- R84: a running command with a refused access ends with BUS_ERROR: ERRADDR holds the address of one of its erring accesses, and no
byte outside its destination range changes. (Where an access of the command is also never answered, R84 and R146 pull apart, and that it
ends with BUS_ERROR all the same is the model's reading: DEDUCED, notes/assumptions/11.md.) -/
def Obligations.BusErrorEndsTheCommand : Prop :=
  ∀ (s : State) (op : Op), s.status.busy = true → s.op = op → s.rst = false → s.erring ≠ [] →
    ∃ t, exec op.instr s = .next t ∧ (∃ x ∈ s.erring, t.errAddr = x.1) ∧
      t.status = { s.status with busy := false, err := true, errCode := .busError } ∧
      s.OnlyDestChanged t ∧ s.SameOutside t

/-- R146: a command that waits on a bus that never responds makes no progress (where no access is refused; the order between the two is
the model's choice, notes/assumptions/11.md). -/
def Obligations.StalledCommandWaits : Prop :=
  ∀ (s : State) (op : Op), s.status.busy = true → s.op = op → s.rst = false → s.erring = [] → s.stalls = true →
    exec op.instr s = .next s

/-- R61, R83: a disturbed command completes all the same; of its destination bytes nothing is said (notes/assumptions/12.md), and no other
byte changes. -/
def Obligations.DisturbedCommandCompletes : Prop :=
  ∀ (s : State) (op : Op), s.status.busy = true → s.op = op → s.rst = false → s.disturbed = true → s.erring = [] →
    s.stalls = false → ∃ t, exec op.instr s = .next t ∧ t.status = { s.status with busy := false, done := true } ∧
      t.errAddr = s.errAddr ∧ s.OnlyDestChanged t ∧ s.SameOutside t

/-- R67, R141: however a running command ends, its source range is never written. -/
def Obligations.EngineNeverWritesTheSource : Prop :=
  ∀ (s : State) (op : Op), s.Inv → s.status.busy = true → s.op = op → ∃ t, exec op.instr s = .next t ∧
    ∀ a : Nat, s.inSource a = true → t.mem.read a = s.mem.read a

/-- R89, R61: the host's own write of a buffer byte; it disturbs a running command exactly when the byte is in its source or
destination range. -/
def Obligations.HostMemoryWrite : Prop :=
  ∀ (s : State) (addr : Word) (v : Byte) (rest : List Event), s.Inv → s.schedule = .memWrite addr v :: rest →
    ∃ t, step s = .next t ∧ t.mem.read addr.toNat = v ∧ (∀ a : Nat, a ≠ addr.toNat → t.mem.read a = s.mem.read a) ∧
      t.disturbed = (s.disturbed || (s.status.busy && (s.inSource addr.toNat || s.inDest addr.toNat))) ∧
      t = { s with mem := t.mem, disturbed := t.disturbed, schedule := rest }

/-- R89, R61: the host's own read of a buffer byte returns it, except for a destination byte of a running command (of whose value
nothing is said). It disturbs nothing: R61 counts writes only, and the model follows it over the wording of R89 (notes/assumptions/10.md). -/
def Obligations.HostMemoryRead : Prop :=
  ∀ (s : State) (addr : Word) (rest : List Event), s.schedule = .memRead addr :: rest →
    ∃ t, step s = .next t ∧ (s.status.busy = false ∨ s.inDest addr.toNat = false → t.hostByte = s.mem.read addr.toNat) ∧
      t = { s with hostByte := t.hostByte, epoch := t.epoch, schedule := rest }

/-- R49, R151, R152: asserting rst gives every register its reset value at once and stops a running command, which sets neither DONE nor
ERR; irq is 0; the only buffer bytes that may change are the running command's destination bytes. ('At once' is the model's reading:
notes/assumptions/19.md.) -/
def Obligations.ResetInputAsserted : Prop :=
  ∀ (s : State) (rest : List Event), s.schedule = .rst true :: rest →
    ∃ t, step s = .next t ∧ t.rst = true ∧ t.irq = false ∧ t.status = State.reset.status ∧ t.key = 0#32 ∧ t.srcBase = 0#32 ∧
      t.dstBase = 0#32 ∧ t.height = 0#16 ∧ t.width = 0#16 ∧ t.channels = 3#8 ∧ t.irqEn = 0#2 ∧ t.errAddr = 0#32 ∧
      t.platform = s.platform ∧ t.schedule = rest ∧ (s.status.busy = false → t.mem = s.mem) ∧ s.OnlyDestChanged t

/-- R151: when rst is deasserted every register has its reset value and the sequencer is IDLE; a level that was low already changes
nothing (the model's reading of the input as a level: notes/assumptions/19.md). -/
def Obligations.ResetInputDeasserted : Prop :=
  ∀ (s : State) (rest : List Event), s.schedule = .rst false :: rest →
    (s.rst = true → ∃ t, step s = .next t ∧ t.rst = false ∧ t.irq = false ∧ t.status = State.reset.status ∧ t.key = 0#32 ∧
      t.srcBase = 0#32 ∧ t.dstBase = 0#32 ∧ t.height = 0#16 ∧ t.width = 0#16 ∧ t.channels = 3#8 ∧ t.irqEn = 0#2 ∧
      t.errAddr = 0#32 ∧ (s.status.busy = false → t.mem = s.mem)) ∧
    (s.rst = false → step s = .next { s with schedule := rest })

/-! ### The PRNG (41_prng.md) -/

/-- R92: Reseed. -/
def Obligations.ReseedFillsTheBlock : Prop :=
  ∀ seed : Word, (reseed seed).mti = 624 ∧ (reseed seed).mt.length = 624 ∧ (reseed seed).mt.getD 0 0 = seed ∧
    ∀ i : Nat, 1 ≤ i → i ≤ 623 → ((reseed seed).mt.getD i 0).toNat =
      (1812433253 * ((reseed seed).mt.getD (i - 1) 0 ^^^ ((reseed seed).mt.getD (i - 1) 0 >>> 30)).toNat + i) % 2 ^ 32

/-- R93: the block regeneration by runs gives what the rule's in-place loop gives, on every block of 624 words; and `Next32`, as the rule
writes it: the loop over `mt` where `mti` is 624, then the word at `mti`, tempered, and `mti` one further. -/
def Obligations.TwistIsTheInPlaceLoop : Prop :=
  (∀ mt : List Word, mt.length = 624 → twist mt = twistInPlace 624 0 mt) ∧
  ∀ g : Prng, g.mt.length = 624 → g.mti ≤ 624 →
    let regenerated := (List.range 624).foldl (fun mt k =>
      let y := (mt.getD k 0 &&& 0x80000000#32) ||| (mt.getD ((k + 1) % 624) 0 &&& 0x7FFFFFFF#32)
      mt.set k (mt.getD ((k + 397) % 624) 0 ^^^ (y >>> 1) ^^^ (if y &&& 1#32 = 1#32 then 0x9908B0DF#32 else 0#32))) g.mt
    let g' : Prng := if g.mti = 624 then { mt := regenerated, mti := 0 } else g
    let y0 := g'.mt.getD g'.mti 0
    let y1 := y0 ^^^ (y0 >>> 11)
    let y2 := y1 ^^^ ((y1 <<< 7) &&& 0x9D2C5680#32)
    let y3 := y2 ^^^ ((y2 <<< 15) &&& 0xEFC60000#32)
    next32 g = (y3 ^^^ (y3 >>> 18), { mt := g'.mt, mti := g'.mti + 1 })

/-- R94: Mask(v) is the smallest value of the form 2^b − 1 that is at least v. -/
def Obligations.MaskIsSmallest : Prop :=
  ∀ v : Word, v ≤ maskOf v ∧ (∃ b : Nat, b ≤ 32 ∧ (maskOf v).toNat = 2 ^ b - 1) ∧
    ∀ b : Nat, v.toNat ≤ 2 ^ b - 1 → (maskOf v).toNat ≤ 2 ^ b - 1

/-- R95: Interval(max) is in [0, max], and Interval(0) draws nothing. For another max, if the words 0 to k−1 of the generator, masked with
Mask(max), exceed max and word k does not, then the draw is word k masked, and k+1 words are consumed, the rejected ones too. (That is
said for k below the model's bound of rejected words; after it the draw is a free value in the same range: notes/assumptions/9.md.) -/
def Obligations.IntervalIsInRange : Prop :=
  ∀ (max : Word) (g : Prng), (interval max g).1 ≤ max ∧ interval 0#32 g = (0#32, g) ∧
    ∀ k : Nat, max ≠ 0#32 → k < drawLimit → (∀ j : Nat, j < k → max < wordAt g j &&& maskOf max) →
      wordAt g k &&& maskOf max ≤ max →
        interval max g = (wordAt g k &&& maskOf max, (fun h : Prng => (next32 h).2)^[k + 1] g)

/-- R96: Bounded(lo, hi) is in [lo, hi); with hi − lo = 1 it draws nothing; otherwise, with rng = hi − lo − 1, the first word whose value
under Mask(rng) is at most rng is drawn, and every word up to it is consumed (for fewer rejected words than the model's bound, after
which the draw is a free value in the same range: notes/assumptions/9.md). So Bounded(0, 256) is the low byte of exactly one word, and
Bounded(-50, 50) lies in −50..49 and is the first 7-bit value at most 99, less 50. R123: the noise values are Bounded(-50, 50), drawn one
after the other. -/
def Obligations.BoundedDraws : Prop :=
  (∀ (lo hi : Int) (g : Prng), lo < hi → hi - lo ≤ 2 ^ 32 - 1 → lo ≤ (bounded lo hi g).1 ∧ (bounded lo hi g).1 < hi ∧
    (hi - lo = 1 → bounded lo hi g = (lo, g)) ∧
    ∀ (rng : Word) (k : Nat), (rng.toNat : Int) = hi - lo - 1 → rng ≠ 0#32 → k < drawLimit →
      (∀ j : Nat, j < k → rng < wordAt g j &&& maskOf rng) → wordAt g k &&& maskOf rng ≤ rng →
        bounded lo hi g = (lo + ((wordAt g k &&& maskOf rng).toNat : Int), (fun h : Prng => (next32 h).2)^[k + 1] g)) ∧
  (∀ g : Prng, bounded 0 256 g = ((((next32 g).1.setWidth 8).toNat : Int), (next32 g).2) ∧
    -50 ≤ (bounded (-50) 50 g).1 ∧ (bounded (-50) 50 g).1 ≤ 49 ∧
    ∀ k : Nat, k < drawLimit → (∀ j : Nat, j < k → 99#32 < wordAt g j &&& 0x7F#32) → wordAt g k &&& 0x7F#32 ≤ 99#32 →
      bounded (-50) 50 g = (((wordAt g k &&& 0x7F#32).toNat : Int) - 50, (fun h : Prng => (next32 h).2)^[k + 1] g)) ∧
  (∀ (n a : Nat) (g : Prng), a < n →
    (drawNoise n g).1.getD a 0 = (bounded (-50) 50 ((fun h : Prng => (bounded (-50) 50 h).2)^[a] g)).1)

/-- R97: ShuffleIdentity(n) is a permutation of 0..n−1; it is the rule's loop over i from n−1 down to 1, each exchanging entry i with entry
j, j = Interval(i). For n ≤ 1 it draws nothing, and for n = 2 it is [0, 1] if the one word drawn is odd, else [1, 0]. (The word is drawn by
the loop of `Obligations.IntervalIsInRange`.) -/
def Obligations.ShuffleIdentityIsAPermutation : Prop :=
  (∀ (n : Nat) (g : Prng), n < 2 ^ 32 → ((shuffleIdentity n g).1.Perm (List.range n)) ∧ (n ≤ 1 → (shuffleIdentity n g).2 = g) ∧
    shuffleIdentity n g = (List.range (n - 1)).foldl (fun s c =>
      let i := n - 1 - c
      let j := (interval (BitVec.ofNat 32 i) s.2).1.toNat
      ((s.1.set i (s.1.getD j 0)).set j (s.1.getD i 0), (interval (BitVec.ofNat 32 i) s.2).2)) (List.range n, g)) ∧
  ∀ g : Prng, shuffleIdentity 2 g = (if (next32 g).1.getLsbD 0 then [0, 1] else [1, 0], (next32 g).2)

/-- R134: the channel permutation and its inverse as a function of the two draws; every pair of draws is in the table. -/
def Obligations.ChannelPermutationTable : Prop :=
  ∀ g : Prng,
    let j1 := (interval 2#32 g).1
    let j2 := (interval 1#32 (interval 2#32 g).2).1
    let cp := (shuffleIdentity 3 g).1
    let ci := (List.range 3).map fun j => cp.idxOf j
    (j1 = 0#32 ∧ j2 = 0#32 ∧ cp = [1, 2, 0] ∧ ci = [2, 0, 1]) ∨ (j1 = 0#32 ∧ j2 = 1#32 ∧ cp = [2, 1, 0] ∧ ci = [2, 1, 0]) ∨
    (j1 = 1#32 ∧ j2 = 0#32 ∧ cp = [2, 0, 1] ∧ ci = [1, 2, 0]) ∨ (j1 = 1#32 ∧ j2 = 1#32 ∧ cp = [0, 2, 1] ∧ ci = [0, 2, 1]) ∨
    (j1 = 2#32 ∧ j2 = 0#32 ∧ cp = [1, 0, 2] ∧ ci = [1, 0, 2]) ∨ (j1 = 2#32 ∧ j2 = 1#32 ∧ cp = [0, 1, 2] ∧ ci = [0, 1, 2])
end

