-- ==== Sys2Proof/Laws/Memory.lean ====
section
/-! SUPPORT. The buffer memory: what a write changes, that every operation keeps the canonical form, and what a stored
run of bytes reads as. -/

namespace Sys2Proof.Machine

/-- What the canonical form says of a non-empty memory. -/
theorem Memory.wf_cons {a : Nat} {v : Byte} {m : Memory} :
    Memory.wf ((a, v) :: m) = true ↔
      a < 2 ^ 32 ∧ v ≠ Memory.unlisted ∧ (∀ c ∈ m, a < c.1) ∧ Memory.wf m = true := by
  simp [Memory.wf, and_assoc]

@[simp] theorem Memory.wf_nil : Memory.wf [] = true := rfl

@[simp] theorem Memory.read_nil (a : Nat) : Memory.read [] a = Memory.unlisted := rfl

theorem Memory.read_cons (b : Nat) (v : Byte) (m : Memory) (a : Nat) :
    Memory.read ((b, v) :: m) a = if b = a then v else Memory.read m a := rfl

/-- An address below every listed one reads as an unlisted one. -/
theorem Memory.read_below {m : Memory} {a : Nat} (h : ∀ c ∈ m, a < c.1) : Memory.read m a = Memory.unlisted := by
  induction m with
  | nil => rfl
  | cons c m ih =>
    obtain ⟨b, v⟩ := c
    have hb : a < b := h (b, v) (by simp)
    rw [Memory.read_cons, if_neg (by omega)]
    exact ih fun c hc => h c (by simp [hc])

/-- A write reads back. -/
theorem Memory.read_write_same {m : Memory} (h : m.wf = true) (a : Nat) (v : Byte) : (m.write a v).read a = v := by
  induction m with
  | nil => by_cases hv : v = Memory.unlisted <;> simp [Memory.write, hv, Memory.read_cons]
  | cons c m ih =>
    obtain ⟨b, w⟩ := c
    obtain ⟨-, -, hm, hw⟩ := Memory.wf_cons.1 h
    rw [Memory.write]
    split
    · rename_i hab
      split
      · rename_i hv
        rw [hv]
        exact Memory.read_below (by simpa using ⟨hab, fun x y hxy => lt_trans hab (hm (x, y) hxy)⟩)
      · simp [Memory.read_cons]
    · split
      · rename_i hab
        subst hab
        split
        · rename_i hv
          rw [hv]
          exact Memory.read_below hm
        · simp [Memory.read_cons]
      · rename_i hab
        rw [Memory.read_cons, if_neg (by omega)]
        exact ih hw

/-- A write leaves every other address alone. -/
theorem Memory.read_write_other (m : Memory) {a b : Nat} (hab : b ≠ a) (v : Byte) : (m.write a v).read b = m.read b := by
  induction m with
  | nil => by_cases hv : v = Memory.unlisted <;> simp [Memory.write, hv, Memory.read_cons, hab.symm]
  | cons c m ih =>
    obtain ⟨d, w⟩ := c
    rw [Memory.write]
    split
    · split <;> simp [Memory.read_cons, hab.symm]
    · split
      · rename_i h
        subst h
        split <;> simp [Memory.read_cons, hab.symm]
      · simp [Memory.read_cons, ih]

/-- A write adds no address but its own. -/
theorem Memory.mem_write {m : Memory} {a : Nat} {v : Byte} {c : Host.Cell} (h : c ∈ m.write a v) : c.1 = a ∨ c ∈ m := by
  induction m with
  | nil =>
    by_cases hv : v = Memory.unlisted <;> simp [Memory.write, hv] at h
    exact .inl (by rw [h])
  | cons d m ih =>
    obtain ⟨b, w⟩ := d
    rw [Memory.write] at h
    split at h
    · split at h
      · exact .inr h
      · rcases List.mem_cons.1 h with rfl | h
        · exact .inl rfl
        · exact .inr h
    · split at h
      · split at h
        · exact .inr (List.mem_cons_of_mem _ h)
        · rcases List.mem_cons.1 h with rfl | h
          · exact .inl rfl
          · exact .inr (List.mem_cons_of_mem _ h)
      · rcases List.mem_cons.1 h with rfl | h
        · exact .inr (by simp)
        · exact (ih h).imp id (List.mem_cons_of_mem _)

/-- A write inside the address space keeps the canonical form. -/
theorem Memory.wf_write {m : Memory} (h : m.wf = true) {a : Nat} (ha : a < 2 ^ 32) (v : Byte) : (m.write a v).wf = true := by
  induction m with
  | nil =>
    by_cases hv : v = Memory.unlisted
    · simp [Memory.write, hv]
    · rw [Memory.write, if_neg hv, Memory.wf_cons]
      exact ⟨ha, hv, by simp, rfl⟩
  | cons c m ih =>
    obtain ⟨b, w⟩ := c
    obtain ⟨hb, hw, hm, hwf⟩ := Memory.wf_cons.1 h
    rw [Memory.write]
    split
    · rename_i hab
      split
      · exact h
      · rename_i hv
        refine Memory.wf_cons.2 ⟨ha, hv, ?_, h⟩
        intro c hc
        rcases List.mem_cons.1 hc with rfl | hc
        · exact hab
        · exact lt_trans hab (hm c hc)
    · split
      · rename_i hab
        subst hab
        split
        · exact hwf
        · rename_i hv
          exact Memory.wf_cons.2 ⟨ha, hv, hm, hwf⟩
      · refine Memory.wf_cons.2 ⟨hb, hw, ?_, ih hwf⟩
        intro c hc
        rcases Memory.mem_write hc with rfl | hc
        · omega
        · exact hm c hc

/-- Stored bytes keep the canonical form when they lie inside the address space. -/
theorem Memory.wf_writeBytes {m : Memory} (h : m.wf = true) {base : Nat} {vs : List Byte}
    (hb : vs = [] ∨ base + vs.length ≤ 2 ^ 32) : (m.writeBytes base vs).wf = true := by
  induction vs generalizing m base with
  | nil => exact h
  | cons v vs ih =>
    simp only [List.cons_ne_nil, false_or, List.length_cons] at hb
    exact ih (Memory.wf_write h (by omega) v) (.inr (by omega))

/-- Stored bytes leave every address outside their range alone. -/
theorem Memory.read_writeBytes_outside (m : Memory) (base : Nat) (vs : List Byte) {a : Nat}
    (h : a < base ∨ base + vs.length ≤ a) : (m.writeBytes base vs).read a = m.read a := by
  induction vs generalizing m base with
  | nil => rfl
  | cons v vs ih =>
    simp only [List.length_cons] at h
    rw [Memory.writeBytes, ih _ _ (by omega), Memory.read_write_other _ (by omega)]

/-- Stored bytes read back, each at its own address. -/
theorem Memory.read_writeBytes_inside {m : Memory} (h : m.wf = true) {base : Nat} {vs : List Byte}
    (hb : base + vs.length ≤ 2 ^ 32) {i : Nat} (hi : i < vs.length) : (m.writeBytes base vs).read (base + i) = vs[i] := by
  induction vs generalizing m base i with
  | nil => simp at hi
  | cons v vs ih =>
    simp only [List.length_cons] at hb hi
    rw [Memory.writeBytes]
    cases i with
    | zero =>
      rw [Memory.read_writeBytes_outside _ _ _ (by omega)]
      exact Memory.read_write_same h _ _
    | succ i =>
      have := ih (Memory.wf_write h (a := base) (by omega) v) (base := base + 1) (by omega) (i := i) (by omega)
      simpa [Nat.add_assoc, Nat.add_comm 1 i] using this

@[simp] theorem Memory.readBytes_length (m : Memory) (base n : Nat) : (m.readBytes base n).length = n := by
  simp [Memory.readBytes]

/-- A read of a run of bytes gives the byte at each address. -/
theorem Memory.getD_readBytes (m : Memory) (base n : Nat) {i : Nat} (h : i < n) :
    (m.readBytes base n).getD i 0 = m.read (base + i) := by
  simp [Memory.readBytes, List.getD, h]

@[simp] theorem freeBytes_length (epoch n : Nat) : (freeBytes epoch n).length = n := by
  simp [freeBytes]

end Sys2Proof.Machine
end

