-- ==== Sys2Proof/Laws/Prng.lean ====
section
/-! SUPPORT. The PRNG: what each function does, once; that the generator keeps its shape; that a draw depends on the
generator state alone. -/

namespace Sys2Proof.Machine

/-- `forceWord` changes no value. -/
@[simp] theorem forceWord_eq {α : Type} (x : Word) (k : Word → α) : forceWord x k = k x := by
  unfold forceWord
  split
  · rename_i h
    rw [show x = 0#32 from BitVec.eq_of_toNat_eq (by simpa using h)]
  · rename_i n h
    rw [show n + 1 = x.toNat from h.symm, BitVec.ofNat_toNat, BitVec.setWidth_eq]

theorem seedWords_succ (count i : Nat) (prev : Word) :
    seedWords (count + 1) i prev =
      (1812433253#32 * (prev ^^^ (prev >>> 30)) + BitVec.ofNat 32 i) ::
        seedWords count (i + 1) (1812433253#32 * (prev ^^^ (prev >>> 30)) + BitVec.ofNat 32 i) := by
  rw [seedWords, forceWord_eq]

@[simp] theorem seedWords_length (count i : Nat) (prev : Word) : (seedWords count i prev).length = count := by
  induction count generalizing i prev with
  | zero => rfl
  | succ n ih => rw [seedWords_succ, List.length_cons, ih]

@[simp] theorem reseed_mti (seed : Word) : (reseed seed).mti = 624 := rfl

@[simp] theorem reseed_length (seed : Word) : (reseed seed).mt.length = 624 := by
  simp [reseed]

/-- A run of regenerated entries is as long as its shortest source, and entry `i` comes from the three entries `i`. -/
theorem twistRun_eq (as bs cs : List Word) :
    twistRun as bs cs = ((as.zip bs).zip cs).map fun x => twistWord x.1.1 x.1.2 x.2 := by
  induction as generalizing bs cs with
  | nil => cases bs <;> cases cs <;> rfl
  | cons a as ih =>
    cases bs with
    | nil => cases cs <;> rfl
    | cons b bs =>
      cases cs with
      | nil => rfl
      | cons c cs => simp [twistRun, ih]

@[simp] theorem twistRun_length (as bs cs : List Word) :
    (twistRun as bs cs).length = min (min as.length bs.length) cs.length := by
  simp [twistRun_eq]

@[simp] theorem twistInPlace_length (count k : Nat) (mt : List Word) : (twistInPlace count k mt).length = mt.length := by
  induction count generalizing k mt with
  | zero => rfl
  | succ n ih => rw [twistInPlace, ih, List.length_set]

/-- The regenerated block has as many words as the block. -/
theorem twist_length {mt : List Word} (h : mt.length = 624) : (twist mt).length = 624 := by
  simp [twist, h]

/-- `Next32` keeps the generator's shape. -/
theorem next32_shape {g : Prng} (h : g.mt.length = 624 ∧ g.mti ≤ 624) :
    (next32 g).2.mt.length = 624 ∧ (next32 g).2.mti ≤ 624 := by
  unfold next32 refill
  split
  · exact ⟨twist_length h.1, by simp⟩
  · exact ⟨h.1, by have := h.2; simp only; omega⟩

/-- One turn of the rejection loop (R95, R96). -/
theorem drawMasked_succ (limit : Nat) (mask max : Word) (g : Prng) :
    drawMasked (limit + 1) mask max g =
      if (next32 g).1 &&& mask ≤ max then ((next32 g).1 &&& mask, (next32 g).2)
      else drawMasked limit mask max (next32 g).2 := by
  rw [drawMasked]

/-- A masked-rejection draw is at most its bound. -/
theorem drawMasked_le (limit : Nat) (mask max : Word) (g : Prng) : (drawMasked limit mask max g).1 ≤ max := by
  induction limit generalizing g with
  | zero =>
    rw [drawMasked, BitVec.le_def, BitVec.toNat_ofNat]
    have h1 := Nat.mod_lt (Config.freeDraw max.toNat) (Nat.succ_pos max.toNat)
    have h2 := Nat.mod_le (Config.freeDraw max.toNat % (max.toNat + 1)) (2 ^ 32)
    simp only [Nat.succ_eq_add_one] at h1
    omega
  | succ n ih =>
    rw [drawMasked_succ]
    split
    · assumption
    · exact ih _

@[simp] theorem drawBytes_length (n : Nat) (g : Prng) : (drawBytes n g).1.length = n := by
  induction n generalizing g with
  | zero => rfl
  | succ n ih => simp [drawBytes, ih]

@[simp] theorem drawNoise_length (n : Nat) (g : Prng) : (drawNoise n g).1.length = n := by
  induction n generalizing g with
  | zero => rfl
  | succ n ih => simp [drawNoise, ih]

/-- Byte `a` of the XOR stream is the low byte of word `a` (R102). -/
theorem getD_drawBytes (n : Nat) (g : Prng) {a : Nat} (h : a < n) (d : Byte) :
    (drawBytes n g).1.getD a d = (wordAt g a).setWidth 8 := by
  induction n generalizing g a with
  | zero => omega
  | succ n ih =>
    cases a with
    | zero => simp [drawBytes, wordAt]
    | succ a => simpa [drawBytes, wordAt] using ih (next32 g).2 (by omega)

@[simp] theorem swapEntries_length (p : List Nat) (i j : Nat) : (swapEntries p i j).length = p.length := by
  simp [swapEntries]

/-- Exchanging two entries permutes a list. -/
theorem swapEntries_perm (p : List Nat) {i j : Nat} (hi : i < p.length) (hj : j < p.length) : (swapEntries p i j).Perm p := by
  unfold swapEntries
  rw [List.getD_eq_getElem _ _ hi, List.getD_eq_getElem _ _ hj]
  exact List.set_set_perm hi hj

theorem shuffleFrom_succ (i : Nat) (p : List Nat) (g : Prng) :
    shuffleFrom (i + 1) p g =
      shuffleFrom i (swapEntries p (i + 1) (interval (BitVec.ofNat 32 (i + 1)) g).1.toNat) (interval (BitVec.ofNat 32 (i + 1)) g).2 := by
  rw [shuffleFrom]

end Sys2Proof.Machine
end

