-- ==== Sys2Proof/Laws/State.lean ====
section
/-! SUPPORT. One lemma per field per update of the state, each true by `rfl`, so that no proof unfolds a record update;
and the shape and the ranges of a command, which none of these updates changes. -/

namespace Sys2Proof.Machine

/-! ### `State.forgetInternals` -/

@[simp] theorem State.forgetInternals_platform (s : State) : s.forgetInternals.platform = s.platform := rfl
@[simp] theorem State.forgetInternals_rst (s : State) : s.forgetInternals.rst = s.rst := rfl
@[simp] theorem State.forgetInternals_status (s : State) : s.forgetInternals.status = s.status := rfl
@[simp] theorem State.forgetInternals_key (s : State) : s.forgetInternals.key = s.key := rfl
@[simp] theorem State.forgetInternals_srcBase (s : State) : s.forgetInternals.srcBase = s.srcBase := rfl
@[simp] theorem State.forgetInternals_dstBase (s : State) : s.forgetInternals.dstBase = s.dstBase := rfl
@[simp] theorem State.forgetInternals_height (s : State) : s.forgetInternals.height = s.height := rfl
@[simp] theorem State.forgetInternals_width (s : State) : s.forgetInternals.width = s.width := rfl
@[simp] theorem State.forgetInternals_channels (s : State) : s.forgetInternals.channels = s.channels := rfl
@[simp] theorem State.forgetInternals_irqEn (s : State) : s.forgetInternals.irqEn = s.irqEn := rfl
@[simp] theorem State.forgetInternals_errAddr (s : State) : s.forgetInternals.errAddr = s.errAddr := rfl
@[simp] theorem State.forgetInternals_op (s : State) : s.forgetInternals.op = Config.freeOp s.epoch := rfl
@[simp] theorem State.forgetInternals_disturbed (s : State) : s.forgetInternals.disturbed = s.disturbed := rfl
@[simp] theorem State.forgetInternals_eng (s : State) : s.forgetInternals.eng = Internal.unspecified s.epoch := rfl
@[simp] theorem State.forgetInternals_mem (s : State) : s.forgetInternals.mem = s.mem := rfl
@[simp] theorem State.forgetInternals_resp (s : State) : s.forgetInternals.resp = s.resp := rfl
@[simp] theorem State.forgetInternals_hostByte (s : State) : s.forgetInternals.hostByte = s.hostByte := rfl
@[simp] theorem State.forgetInternals_schedule (s : State) : s.forgetInternals.schedule = s.schedule := rfl
@[simp] theorem State.forgetInternals_program (s : State) : s.forgetInternals.program = s.program := rfl
@[simp] theorem State.forgetInternals_epoch (s : State) : s.forgetInternals.epoch = s.epoch + 1 := rfl
@[simp] theorem State.forgetInternals_pixels (s : State) : s.forgetInternals.pixels = s.pixels := rfl
@[simp] theorem State.forgetInternals_len (s : State) : s.forgetInternals.len = s.len := rfl
@[simp] theorem State.forgetInternals_src (s : State) : s.forgetInternals.src = s.src := rfl
@[simp] theorem State.forgetInternals_dst (s : State) : s.forgetInternals.dst = s.dst := rfl
@[simp] theorem State.forgetInternals_inSource (s : State) (a : Nat) : s.forgetInternals.inSource a = s.inSource a := rfl
@[simp] theorem State.forgetInternals_inDest (s : State) (a : Nat) : s.forgetInternals.inDest a = s.inDest a := rfl
@[simp] theorem State.forgetInternals_checkOperands (s : State) (p : Op) : s.forgetInternals.checkOperands p = s.checkOperands p := rfl

/-! ### `State.respond` -/

@[simp] theorem State.respond_platform (s : State) (r : Response) : (s.respond r).platform = s.platform := rfl
@[simp] theorem State.respond_rst (s : State) (r : Response) : (s.respond r).rst = s.rst := rfl
@[simp] theorem State.respond_status (s : State) (r : Response) : (s.respond r).status = s.status := rfl
@[simp] theorem State.respond_key (s : State) (r : Response) : (s.respond r).key = s.key := rfl
@[simp] theorem State.respond_srcBase (s : State) (r : Response) : (s.respond r).srcBase = s.srcBase := rfl
@[simp] theorem State.respond_dstBase (s : State) (r : Response) : (s.respond r).dstBase = s.dstBase := rfl
@[simp] theorem State.respond_height (s : State) (r : Response) : (s.respond r).height = s.height := rfl
@[simp] theorem State.respond_width (s : State) (r : Response) : (s.respond r).width = s.width := rfl
@[simp] theorem State.respond_channels (s : State) (r : Response) : (s.respond r).channels = s.channels := rfl
@[simp] theorem State.respond_irqEn (s : State) (r : Response) : (s.respond r).irqEn = s.irqEn := rfl
@[simp] theorem State.respond_errAddr (s : State) (r : Response) : (s.respond r).errAddr = s.errAddr := rfl
@[simp] theorem State.respond_op (s : State) (r : Response) : (s.respond r).op = s.op := rfl
@[simp] theorem State.respond_disturbed (s : State) (r : Response) : (s.respond r).disturbed = s.disturbed := rfl
@[simp] theorem State.respond_eng (s : State) (r : Response) : (s.respond r).eng = s.eng := rfl
@[simp] theorem State.respond_mem (s : State) (r : Response) : (s.respond r).mem = s.mem := rfl
@[simp] theorem State.respond_resp (s : State) (r : Response) : (s.respond r).resp = r := rfl
@[simp] theorem State.respond_hostByte (s : State) (r : Response) : (s.respond r).hostByte = s.hostByte := rfl
@[simp] theorem State.respond_schedule (s : State) (r : Response) : (s.respond r).schedule = s.schedule := rfl
@[simp] theorem State.respond_program (s : State) (r : Response) : (s.respond r).program = s.program := rfl
@[simp] theorem State.respond_epoch (s : State) (r : Response) : (s.respond r).epoch = s.epoch := rfl
@[simp] theorem State.respond_pixels (s : State) (r : Response) : (s.respond r).pixels = s.pixels := rfl
@[simp] theorem State.respond_len (s : State) (r : Response) : (s.respond r).len = s.len := rfl
@[simp] theorem State.respond_src (s : State) (r : Response) : (s.respond r).src = s.src := rfl
@[simp] theorem State.respond_dst (s : State) (r : Response) : (s.respond r).dst = s.dst := rfl
@[simp] theorem State.respond_inSource (s : State) (r : Response) (a : Nat) : (s.respond r).inSource a = s.inSource a := rfl
@[simp] theorem State.respond_inDest (s : State) (r : Response) (a : Nat) : (s.respond r).inDest a = s.inDest a := rfl
@[simp] theorem State.respond_checkOperands (s : State) (r : Response) (p : Op) : (s.respond r).checkOperands p = s.checkOperands p := rfl

/-! ### `State.withSchedule` -/

@[simp] theorem State.withSchedule_platform (s : State) (es : List Event) : (s.withSchedule es).platform = s.platform := rfl
@[simp] theorem State.withSchedule_rst (s : State) (es : List Event) : (s.withSchedule es).rst = s.rst := rfl
@[simp] theorem State.withSchedule_status (s : State) (es : List Event) : (s.withSchedule es).status = s.status := rfl
@[simp] theorem State.withSchedule_key (s : State) (es : List Event) : (s.withSchedule es).key = s.key := rfl
@[simp] theorem State.withSchedule_srcBase (s : State) (es : List Event) : (s.withSchedule es).srcBase = s.srcBase := rfl
@[simp] theorem State.withSchedule_dstBase (s : State) (es : List Event) : (s.withSchedule es).dstBase = s.dstBase := rfl
@[simp] theorem State.withSchedule_height (s : State) (es : List Event) : (s.withSchedule es).height = s.height := rfl
@[simp] theorem State.withSchedule_width (s : State) (es : List Event) : (s.withSchedule es).width = s.width := rfl
@[simp] theorem State.withSchedule_channels (s : State) (es : List Event) : (s.withSchedule es).channels = s.channels := rfl
@[simp] theorem State.withSchedule_irqEn (s : State) (es : List Event) : (s.withSchedule es).irqEn = s.irqEn := rfl
@[simp] theorem State.withSchedule_errAddr (s : State) (es : List Event) : (s.withSchedule es).errAddr = s.errAddr := rfl
@[simp] theorem State.withSchedule_op (s : State) (es : List Event) : (s.withSchedule es).op = s.op := rfl
@[simp] theorem State.withSchedule_disturbed (s : State) (es : List Event) : (s.withSchedule es).disturbed = s.disturbed := rfl
@[simp] theorem State.withSchedule_eng (s : State) (es : List Event) : (s.withSchedule es).eng = s.eng := rfl
@[simp] theorem State.withSchedule_mem (s : State) (es : List Event) : (s.withSchedule es).mem = s.mem := rfl
@[simp] theorem State.withSchedule_resp (s : State) (es : List Event) : (s.withSchedule es).resp = s.resp := rfl
@[simp] theorem State.withSchedule_hostByte (s : State) (es : List Event) : (s.withSchedule es).hostByte = s.hostByte := rfl
@[simp] theorem State.withSchedule_schedule (s : State) (es : List Event) : (s.withSchedule es).schedule = es := rfl
@[simp] theorem State.withSchedule_program (s : State) (es : List Event) : (s.withSchedule es).program = s.program := rfl
@[simp] theorem State.withSchedule_epoch (s : State) (es : List Event) : (s.withSchedule es).epoch = s.epoch := rfl
@[simp] theorem State.withSchedule_pixels (s : State) (es : List Event) : (s.withSchedule es).pixels = s.pixels := rfl
@[simp] theorem State.withSchedule_len (s : State) (es : List Event) : (s.withSchedule es).len = s.len := rfl
@[simp] theorem State.withSchedule_src (s : State) (es : List Event) : (s.withSchedule es).src = s.src := rfl
@[simp] theorem State.withSchedule_dst (s : State) (es : List Event) : (s.withSchedule es).dst = s.dst := rfl
@[simp] theorem State.withSchedule_inSource (s : State) (es : List Event) (a : Nat) : (s.withSchedule es).inSource a = s.inSource a := rfl
@[simp] theorem State.withSchedule_inDest (s : State) (es : List Event) (a : Nat) : (s.withSchedule es).inDest a = s.inDest a := rfl
@[simp] theorem State.withSchedule_checkOperands (s : State) (es : List Event) (p : Op) : (s.withSchedule es).checkOperands p = s.checkOperands p := rfl

/-! ### `State.withProgram` -/

@[simp] theorem State.withProgram_platform (s : State) (ss : List HostStmt) : (s.withProgram ss).platform = s.platform := rfl
@[simp] theorem State.withProgram_rst (s : State) (ss : List HostStmt) : (s.withProgram ss).rst = s.rst := rfl
@[simp] theorem State.withProgram_status (s : State) (ss : List HostStmt) : (s.withProgram ss).status = s.status := rfl
@[simp] theorem State.withProgram_key (s : State) (ss : List HostStmt) : (s.withProgram ss).key = s.key := rfl
@[simp] theorem State.withProgram_srcBase (s : State) (ss : List HostStmt) : (s.withProgram ss).srcBase = s.srcBase := rfl
@[simp] theorem State.withProgram_dstBase (s : State) (ss : List HostStmt) : (s.withProgram ss).dstBase = s.dstBase := rfl
@[simp] theorem State.withProgram_height (s : State) (ss : List HostStmt) : (s.withProgram ss).height = s.height := rfl
@[simp] theorem State.withProgram_width (s : State) (ss : List HostStmt) : (s.withProgram ss).width = s.width := rfl
@[simp] theorem State.withProgram_channels (s : State) (ss : List HostStmt) : (s.withProgram ss).channels = s.channels := rfl
@[simp] theorem State.withProgram_irqEn (s : State) (ss : List HostStmt) : (s.withProgram ss).irqEn = s.irqEn := rfl
@[simp] theorem State.withProgram_errAddr (s : State) (ss : List HostStmt) : (s.withProgram ss).errAddr = s.errAddr := rfl
@[simp] theorem State.withProgram_op (s : State) (ss : List HostStmt) : (s.withProgram ss).op = s.op := rfl
@[simp] theorem State.withProgram_disturbed (s : State) (ss : List HostStmt) : (s.withProgram ss).disturbed = s.disturbed := rfl
@[simp] theorem State.withProgram_eng (s : State) (ss : List HostStmt) : (s.withProgram ss).eng = s.eng := rfl
@[simp] theorem State.withProgram_mem (s : State) (ss : List HostStmt) : (s.withProgram ss).mem = s.mem := rfl
@[simp] theorem State.withProgram_resp (s : State) (ss : List HostStmt) : (s.withProgram ss).resp = s.resp := rfl
@[simp] theorem State.withProgram_hostByte (s : State) (ss : List HostStmt) : (s.withProgram ss).hostByte = s.hostByte := rfl
@[simp] theorem State.withProgram_schedule (s : State) (ss : List HostStmt) : (s.withProgram ss).schedule = s.schedule := rfl
@[simp] theorem State.withProgram_program (s : State) (ss : List HostStmt) : (s.withProgram ss).program = ss := rfl
@[simp] theorem State.withProgram_epoch (s : State) (ss : List HostStmt) : (s.withProgram ss).epoch = s.epoch := rfl
@[simp] theorem State.withProgram_pixels (s : State) (ss : List HostStmt) : (s.withProgram ss).pixels = s.pixels := rfl
@[simp] theorem State.withProgram_len (s : State) (ss : List HostStmt) : (s.withProgram ss).len = s.len := rfl
@[simp] theorem State.withProgram_src (s : State) (ss : List HostStmt) : (s.withProgram ss).src = s.src := rfl
@[simp] theorem State.withProgram_dst (s : State) (ss : List HostStmt) : (s.withProgram ss).dst = s.dst := rfl
@[simp] theorem State.withProgram_inSource (s : State) (ss : List HostStmt) (a : Nat) : (s.withProgram ss).inSource a = s.inSource a := rfl
@[simp] theorem State.withProgram_inDest (s : State) (ss : List HostStmt) (a : Nat) : (s.withProgram ss).inDest a = s.inDest a := rfl
@[simp] theorem State.withProgram_checkOperands (s : State) (ss : List HostStmt) (p : Op) : (s.withProgram ss).checkOperands p = s.checkOperands p := rfl

/-! ### `State.raiseError` -/

@[simp] theorem State.raiseError_platform (s : State) (c : ErrCode) : (s.raiseError c).platform = s.platform := rfl
@[simp] theorem State.raiseError_rst (s : State) (c : ErrCode) : (s.raiseError c).rst = s.rst := rfl
@[simp] theorem State.raiseError_status (s : State) (c : ErrCode) : (s.raiseError c).status = { s.status with err := true, errCode := c } := rfl
@[simp] theorem State.raiseError_key (s : State) (c : ErrCode) : (s.raiseError c).key = s.key := rfl
@[simp] theorem State.raiseError_srcBase (s : State) (c : ErrCode) : (s.raiseError c).srcBase = s.srcBase := rfl
@[simp] theorem State.raiseError_dstBase (s : State) (c : ErrCode) : (s.raiseError c).dstBase = s.dstBase := rfl
@[simp] theorem State.raiseError_height (s : State) (c : ErrCode) : (s.raiseError c).height = s.height := rfl
@[simp] theorem State.raiseError_width (s : State) (c : ErrCode) : (s.raiseError c).width = s.width := rfl
@[simp] theorem State.raiseError_channels (s : State) (c : ErrCode) : (s.raiseError c).channels = s.channels := rfl
@[simp] theorem State.raiseError_irqEn (s : State) (c : ErrCode) : (s.raiseError c).irqEn = s.irqEn := rfl
@[simp] theorem State.raiseError_errAddr (s : State) (c : ErrCode) : (s.raiseError c).errAddr = s.errAddr := rfl
@[simp] theorem State.raiseError_op (s : State) (c : ErrCode) : (s.raiseError c).op = s.op := rfl
@[simp] theorem State.raiseError_disturbed (s : State) (c : ErrCode) : (s.raiseError c).disturbed = s.disturbed := rfl
@[simp] theorem State.raiseError_eng (s : State) (c : ErrCode) : (s.raiseError c).eng = s.eng := rfl
@[simp] theorem State.raiseError_mem (s : State) (c : ErrCode) : (s.raiseError c).mem = s.mem := rfl
@[simp] theorem State.raiseError_resp (s : State) (c : ErrCode) : (s.raiseError c).resp = s.resp := rfl
@[simp] theorem State.raiseError_hostByte (s : State) (c : ErrCode) : (s.raiseError c).hostByte = s.hostByte := rfl
@[simp] theorem State.raiseError_schedule (s : State) (c : ErrCode) : (s.raiseError c).schedule = s.schedule := rfl
@[simp] theorem State.raiseError_program (s : State) (c : ErrCode) : (s.raiseError c).program = s.program := rfl
@[simp] theorem State.raiseError_epoch (s : State) (c : ErrCode) : (s.raiseError c).epoch = s.epoch := rfl
@[simp] theorem State.raiseError_pixels (s : State) (c : ErrCode) : (s.raiseError c).pixels = s.pixels := rfl
@[simp] theorem State.raiseError_len (s : State) (c : ErrCode) : (s.raiseError c).len = s.len := rfl
@[simp] theorem State.raiseError_src (s : State) (c : ErrCode) : (s.raiseError c).src = s.src := rfl
@[simp] theorem State.raiseError_dst (s : State) (c : ErrCode) : (s.raiseError c).dst = s.dst := rfl
@[simp] theorem State.raiseError_inSource (s : State) (c : ErrCode) (a : Nat) : (s.raiseError c).inSource a = s.inSource a := rfl
@[simp] theorem State.raiseError_inDest (s : State) (c : ErrCode) (a : Nat) : (s.raiseError c).inDest a = s.inDest a := rfl
@[simp] theorem State.raiseError_checkOperands (s : State) (c : ErrCode) (p : Op) : (s.raiseError c).checkOperands p = s.checkOperands p := rfl

/-! ### `State.clearError` -/

@[simp] theorem State.clearError_platform (s : State) : s.clearError.platform = s.platform := rfl
@[simp] theorem State.clearError_rst (s : State) : s.clearError.rst = s.rst := rfl
@[simp] theorem State.clearError_status (s : State) : s.clearError.status = { s.status with err := false, errCode := .none } := rfl
@[simp] theorem State.clearError_key (s : State) : s.clearError.key = s.key := rfl
@[simp] theorem State.clearError_srcBase (s : State) : s.clearError.srcBase = s.srcBase := rfl
@[simp] theorem State.clearError_dstBase (s : State) : s.clearError.dstBase = s.dstBase := rfl
@[simp] theorem State.clearError_height (s : State) : s.clearError.height = s.height := rfl
@[simp] theorem State.clearError_width (s : State) : s.clearError.width = s.width := rfl
@[simp] theorem State.clearError_channels (s : State) : s.clearError.channels = s.channels := rfl
@[simp] theorem State.clearError_irqEn (s : State) : s.clearError.irqEn = s.irqEn := rfl
@[simp] theorem State.clearError_errAddr (s : State) : s.clearError.errAddr = s.errAddr := rfl
@[simp] theorem State.clearError_op (s : State) : s.clearError.op = s.op := rfl
@[simp] theorem State.clearError_disturbed (s : State) : s.clearError.disturbed = s.disturbed := rfl
@[simp] theorem State.clearError_eng (s : State) : s.clearError.eng = s.eng := rfl
@[simp] theorem State.clearError_mem (s : State) : s.clearError.mem = s.mem := rfl
@[simp] theorem State.clearError_resp (s : State) : s.clearError.resp = s.resp := rfl
@[simp] theorem State.clearError_hostByte (s : State) : s.clearError.hostByte = s.hostByte := rfl
@[simp] theorem State.clearError_schedule (s : State) : s.clearError.schedule = s.schedule := rfl
@[simp] theorem State.clearError_program (s : State) : s.clearError.program = s.program := rfl
@[simp] theorem State.clearError_epoch (s : State) : s.clearError.epoch = s.epoch := rfl
@[simp] theorem State.clearError_pixels (s : State) : s.clearError.pixels = s.pixels := rfl
@[simp] theorem State.clearError_len (s : State) : s.clearError.len = s.len := rfl
@[simp] theorem State.clearError_src (s : State) : s.clearError.src = s.src := rfl
@[simp] theorem State.clearError_dst (s : State) : s.clearError.dst = s.dst := rfl
@[simp] theorem State.clearError_inSource (s : State) (a : Nat) : s.clearError.inSource a = s.inSource a := rfl
@[simp] theorem State.clearError_inDest (s : State) (a : Nat) : s.clearError.inDest a = s.inDest a := rfl
@[simp] theorem State.clearError_checkOperands (s : State) (p : Op) : s.clearError.checkOperands p = s.checkOperands p := rfl

/-! ### `State.clearDone` -/

@[simp] theorem State.clearDone_platform (s : State) : s.clearDone.platform = s.platform := rfl
@[simp] theorem State.clearDone_rst (s : State) : s.clearDone.rst = s.rst := rfl
@[simp] theorem State.clearDone_status (s : State) : s.clearDone.status = { s.status with done := false } := rfl
@[simp] theorem State.clearDone_key (s : State) : s.clearDone.key = s.key := rfl
@[simp] theorem State.clearDone_srcBase (s : State) : s.clearDone.srcBase = s.srcBase := rfl
@[simp] theorem State.clearDone_dstBase (s : State) : s.clearDone.dstBase = s.dstBase := rfl
@[simp] theorem State.clearDone_height (s : State) : s.clearDone.height = s.height := rfl
@[simp] theorem State.clearDone_width (s : State) : s.clearDone.width = s.width := rfl
@[simp] theorem State.clearDone_channels (s : State) : s.clearDone.channels = s.channels := rfl
@[simp] theorem State.clearDone_irqEn (s : State) : s.clearDone.irqEn = s.irqEn := rfl
@[simp] theorem State.clearDone_errAddr (s : State) : s.clearDone.errAddr = s.errAddr := rfl
@[simp] theorem State.clearDone_op (s : State) : s.clearDone.op = s.op := rfl
@[simp] theorem State.clearDone_disturbed (s : State) : s.clearDone.disturbed = s.disturbed := rfl
@[simp] theorem State.clearDone_eng (s : State) : s.clearDone.eng = s.eng := rfl
@[simp] theorem State.clearDone_mem (s : State) : s.clearDone.mem = s.mem := rfl
@[simp] theorem State.clearDone_resp (s : State) : s.clearDone.resp = s.resp := rfl
@[simp] theorem State.clearDone_hostByte (s : State) : s.clearDone.hostByte = s.hostByte := rfl
@[simp] theorem State.clearDone_schedule (s : State) : s.clearDone.schedule = s.schedule := rfl
@[simp] theorem State.clearDone_program (s : State) : s.clearDone.program = s.program := rfl
@[simp] theorem State.clearDone_epoch (s : State) : s.clearDone.epoch = s.epoch := rfl
@[simp] theorem State.clearDone_pixels (s : State) : s.clearDone.pixels = s.pixels := rfl
@[simp] theorem State.clearDone_len (s : State) : s.clearDone.len = s.len := rfl
@[simp] theorem State.clearDone_src (s : State) : s.clearDone.src = s.src := rfl
@[simp] theorem State.clearDone_dst (s : State) : s.clearDone.dst = s.dst := rfl
@[simp] theorem State.clearDone_inSource (s : State) (a : Nat) : s.clearDone.inSource a = s.inSource a := rfl
@[simp] theorem State.clearDone_inDest (s : State) (a : Nat) : s.clearDone.inDest a = s.inDest a := rfl
@[simp] theorem State.clearDone_checkOperands (s : State) (p : Op) : s.clearDone.checkOperands p = s.checkOperands p := rfl

/-! ### `State.clearIgn` -/

@[simp] theorem State.clearIgn_platform (s : State) : s.clearIgn.platform = s.platform := rfl
@[simp] theorem State.clearIgn_rst (s : State) : s.clearIgn.rst = s.rst := rfl
@[simp] theorem State.clearIgn_status (s : State) : s.clearIgn.status = { s.status with ign := false } := rfl
@[simp] theorem State.clearIgn_key (s : State) : s.clearIgn.key = s.key := rfl
@[simp] theorem State.clearIgn_srcBase (s : State) : s.clearIgn.srcBase = s.srcBase := rfl
@[simp] theorem State.clearIgn_dstBase (s : State) : s.clearIgn.dstBase = s.dstBase := rfl
@[simp] theorem State.clearIgn_height (s : State) : s.clearIgn.height = s.height := rfl
@[simp] theorem State.clearIgn_width (s : State) : s.clearIgn.width = s.width := rfl
@[simp] theorem State.clearIgn_channels (s : State) : s.clearIgn.channels = s.channels := rfl
@[simp] theorem State.clearIgn_irqEn (s : State) : s.clearIgn.irqEn = s.irqEn := rfl
@[simp] theorem State.clearIgn_errAddr (s : State) : s.clearIgn.errAddr = s.errAddr := rfl
@[simp] theorem State.clearIgn_op (s : State) : s.clearIgn.op = s.op := rfl
@[simp] theorem State.clearIgn_disturbed (s : State) : s.clearIgn.disturbed = s.disturbed := rfl
@[simp] theorem State.clearIgn_eng (s : State) : s.clearIgn.eng = s.eng := rfl
@[simp] theorem State.clearIgn_mem (s : State) : s.clearIgn.mem = s.mem := rfl
@[simp] theorem State.clearIgn_resp (s : State) : s.clearIgn.resp = s.resp := rfl
@[simp] theorem State.clearIgn_hostByte (s : State) : s.clearIgn.hostByte = s.hostByte := rfl
@[simp] theorem State.clearIgn_schedule (s : State) : s.clearIgn.schedule = s.schedule := rfl
@[simp] theorem State.clearIgn_program (s : State) : s.clearIgn.program = s.program := rfl
@[simp] theorem State.clearIgn_epoch (s : State) : s.clearIgn.epoch = s.epoch := rfl
@[simp] theorem State.clearIgn_pixels (s : State) : s.clearIgn.pixels = s.pixels := rfl
@[simp] theorem State.clearIgn_len (s : State) : s.clearIgn.len = s.len := rfl
@[simp] theorem State.clearIgn_src (s : State) : s.clearIgn.src = s.src := rfl
@[simp] theorem State.clearIgn_dst (s : State) : s.clearIgn.dst = s.dst := rfl
@[simp] theorem State.clearIgn_inSource (s : State) (a : Nat) : s.clearIgn.inSource a = s.inSource a := rfl
@[simp] theorem State.clearIgn_inDest (s : State) (a : Nat) : s.clearIgn.inDest a = s.inDest a := rfl
@[simp] theorem State.clearIgn_checkOperands (s : State) (p : Op) : s.clearIgn.checkOperands p = s.checkOperands p := rfl

/-! ### `State.ignoreWrite` -/

@[simp] theorem State.ignoreWrite_platform (s : State) : s.ignoreWrite.platform = s.platform := rfl
@[simp] theorem State.ignoreWrite_rst (s : State) : s.ignoreWrite.rst = s.rst := rfl
@[simp] theorem State.ignoreWrite_status (s : State) : s.ignoreWrite.status = { s.status with ign := true } := rfl
@[simp] theorem State.ignoreWrite_key (s : State) : s.ignoreWrite.key = s.key := rfl
@[simp] theorem State.ignoreWrite_srcBase (s : State) : s.ignoreWrite.srcBase = s.srcBase := rfl
@[simp] theorem State.ignoreWrite_dstBase (s : State) : s.ignoreWrite.dstBase = s.dstBase := rfl
@[simp] theorem State.ignoreWrite_height (s : State) : s.ignoreWrite.height = s.height := rfl
@[simp] theorem State.ignoreWrite_width (s : State) : s.ignoreWrite.width = s.width := rfl
@[simp] theorem State.ignoreWrite_channels (s : State) : s.ignoreWrite.channels = s.channels := rfl
@[simp] theorem State.ignoreWrite_irqEn (s : State) : s.ignoreWrite.irqEn = s.irqEn := rfl
@[simp] theorem State.ignoreWrite_errAddr (s : State) : s.ignoreWrite.errAddr = s.errAddr := rfl
@[simp] theorem State.ignoreWrite_op (s : State) : s.ignoreWrite.op = s.op := rfl
@[simp] theorem State.ignoreWrite_disturbed (s : State) : s.ignoreWrite.disturbed = s.disturbed := rfl
@[simp] theorem State.ignoreWrite_eng (s : State) : s.ignoreWrite.eng = s.eng := rfl
@[simp] theorem State.ignoreWrite_mem (s : State) : s.ignoreWrite.mem = s.mem := rfl
@[simp] theorem State.ignoreWrite_resp (s : State) : s.ignoreWrite.resp = s.resp := rfl
@[simp] theorem State.ignoreWrite_hostByte (s : State) : s.ignoreWrite.hostByte = s.hostByte := rfl
@[simp] theorem State.ignoreWrite_schedule (s : State) : s.ignoreWrite.schedule = s.schedule := rfl
@[simp] theorem State.ignoreWrite_program (s : State) : s.ignoreWrite.program = s.program := rfl
@[simp] theorem State.ignoreWrite_epoch (s : State) : s.ignoreWrite.epoch = s.epoch := rfl
@[simp] theorem State.ignoreWrite_pixels (s : State) : s.ignoreWrite.pixels = s.pixels := rfl
@[simp] theorem State.ignoreWrite_len (s : State) : s.ignoreWrite.len = s.len := rfl
@[simp] theorem State.ignoreWrite_src (s : State) : s.ignoreWrite.src = s.src := rfl
@[simp] theorem State.ignoreWrite_dst (s : State) : s.ignoreWrite.dst = s.dst := rfl
@[simp] theorem State.ignoreWrite_inSource (s : State) (a : Nat) : s.ignoreWrite.inSource a = s.inSource a := rfl
@[simp] theorem State.ignoreWrite_inDest (s : State) (a : Nat) : s.ignoreWrite.inDest a = s.inDest a := rfl
@[simp] theorem State.ignoreWrite_checkOperands (s : State) (p : Op) : s.ignoreWrite.checkOperands p = s.checkOperands p := rfl

/-! ### `State.clearOutcome` -/

@[simp] theorem State.clearOutcome_platform (s : State) : s.clearOutcome.platform = s.platform := rfl
@[simp] theorem State.clearOutcome_rst (s : State) : s.clearOutcome.rst = s.rst := rfl
@[simp] theorem State.clearOutcome_status (s : State) : s.clearOutcome.status = { s.status with done := false, err := false, errCode := .none } := rfl
@[simp] theorem State.clearOutcome_key (s : State) : s.clearOutcome.key = s.key := rfl
@[simp] theorem State.clearOutcome_srcBase (s : State) : s.clearOutcome.srcBase = s.srcBase := rfl
@[simp] theorem State.clearOutcome_dstBase (s : State) : s.clearOutcome.dstBase = s.dstBase := rfl
@[simp] theorem State.clearOutcome_height (s : State) : s.clearOutcome.height = s.height := rfl
@[simp] theorem State.clearOutcome_width (s : State) : s.clearOutcome.width = s.width := rfl
@[simp] theorem State.clearOutcome_channels (s : State) : s.clearOutcome.channels = s.channels := rfl
@[simp] theorem State.clearOutcome_irqEn (s : State) : s.clearOutcome.irqEn = s.irqEn := rfl
@[simp] theorem State.clearOutcome_errAddr (s : State) : s.clearOutcome.errAddr = s.errAddr := rfl
@[simp] theorem State.clearOutcome_op (s : State) : s.clearOutcome.op = s.op := rfl
@[simp] theorem State.clearOutcome_disturbed (s : State) : s.clearOutcome.disturbed = s.disturbed := rfl
@[simp] theorem State.clearOutcome_eng (s : State) : s.clearOutcome.eng = s.eng := rfl
@[simp] theorem State.clearOutcome_mem (s : State) : s.clearOutcome.mem = s.mem := rfl
@[simp] theorem State.clearOutcome_resp (s : State) : s.clearOutcome.resp = s.resp := rfl
@[simp] theorem State.clearOutcome_hostByte (s : State) : s.clearOutcome.hostByte = s.hostByte := rfl
@[simp] theorem State.clearOutcome_schedule (s : State) : s.clearOutcome.schedule = s.schedule := rfl
@[simp] theorem State.clearOutcome_program (s : State) : s.clearOutcome.program = s.program := rfl
@[simp] theorem State.clearOutcome_epoch (s : State) : s.clearOutcome.epoch = s.epoch := rfl
@[simp] theorem State.clearOutcome_pixels (s : State) : s.clearOutcome.pixels = s.pixels := rfl
@[simp] theorem State.clearOutcome_len (s : State) : s.clearOutcome.len = s.len := rfl
@[simp] theorem State.clearOutcome_src (s : State) : s.clearOutcome.src = s.src := rfl
@[simp] theorem State.clearOutcome_dst (s : State) : s.clearOutcome.dst = s.dst := rfl
@[simp] theorem State.clearOutcome_inSource (s : State) (a : Nat) : s.clearOutcome.inSource a = s.inSource a := rfl
@[simp] theorem State.clearOutcome_inDest (s : State) (a : Nat) : s.clearOutcome.inDest a = s.inDest a := rfl
@[simp] theorem State.clearOutcome_checkOperands (s : State) (p : Op) : s.clearOutcome.checkOperands p = s.checkOperands p := rfl

/-! ### `State.start` -/

@[simp] theorem State.start_platform (s : State) (o : Op) : (s.start o).platform = s.platform := rfl
@[simp] theorem State.start_rst (s : State) (o : Op) : (s.start o).rst = s.rst := rfl
@[simp] theorem State.start_status (s : State) (o : Op) : (s.start o).status = { s.status with busy := true } := rfl
@[simp] theorem State.start_key (s : State) (o : Op) : (s.start o).key = s.key := rfl
@[simp] theorem State.start_srcBase (s : State) (o : Op) : (s.start o).srcBase = s.srcBase := rfl
@[simp] theorem State.start_dstBase (s : State) (o : Op) : (s.start o).dstBase = s.dstBase := rfl
@[simp] theorem State.start_height (s : State) (o : Op) : (s.start o).height = s.height := rfl
@[simp] theorem State.start_width (s : State) (o : Op) : (s.start o).width = s.width := rfl
@[simp] theorem State.start_channels (s : State) (o : Op) : (s.start o).channels = s.channels := rfl
@[simp] theorem State.start_irqEn (s : State) (o : Op) : (s.start o).irqEn = s.irqEn := rfl
@[simp] theorem State.start_errAddr (s : State) (o : Op) : (s.start o).errAddr = s.errAddr := rfl
@[simp] theorem State.start_op (s : State) (o : Op) : (s.start o).op = o := rfl
@[simp] theorem State.start_disturbed (s : State) (o : Op) : (s.start o).disturbed = false := rfl
@[simp] theorem State.start_eng (s : State) (o : Op) : (s.start o).eng = s.eng := rfl
@[simp] theorem State.start_mem (s : State) (o : Op) : (s.start o).mem = s.mem := rfl
@[simp] theorem State.start_resp (s : State) (o : Op) : (s.start o).resp = s.resp := rfl
@[simp] theorem State.start_hostByte (s : State) (o : Op) : (s.start o).hostByte = s.hostByte := rfl
@[simp] theorem State.start_schedule (s : State) (o : Op) : (s.start o).schedule = s.schedule := rfl
@[simp] theorem State.start_program (s : State) (o : Op) : (s.start o).program = s.program := rfl
@[simp] theorem State.start_epoch (s : State) (o : Op) : (s.start o).epoch = s.epoch := rfl
@[simp] theorem State.start_pixels (s : State) (o : Op) : (s.start o).pixels = s.pixels := rfl
@[simp] theorem State.start_len (s : State) (o : Op) : (s.start o).len = s.len := rfl
@[simp] theorem State.start_src (s : State) (o : Op) : (s.start o).src = s.src := rfl
@[simp] theorem State.start_dst (s : State) (o : Op) : (s.start o).dst = s.dst := rfl
@[simp] theorem State.start_inSource (s : State) (o : Op) (a : Nat) : (s.start o).inSource a = s.inSource a := rfl
@[simp] theorem State.start_inDest (s : State) (o : Op) (a : Nat) : (s.start o).inDest a = s.inDest a := rfl
@[simp] theorem State.start_checkOperands (s : State) (o : Op) (p : Op) : (s.start o).checkOperands p = s.checkOperands p := rfl

/-! ### `State.leaveRun` -/

@[simp] theorem State.leaveRun_platform (s : State) : s.leaveRun.platform = s.platform := rfl
@[simp] theorem State.leaveRun_rst (s : State) : s.leaveRun.rst = s.rst := rfl
@[simp] theorem State.leaveRun_status (s : State) : s.leaveRun.status = { s.status with busy := false } := rfl
@[simp] theorem State.leaveRun_key (s : State) : s.leaveRun.key = s.key := rfl
@[simp] theorem State.leaveRun_srcBase (s : State) : s.leaveRun.srcBase = s.srcBase := rfl
@[simp] theorem State.leaveRun_dstBase (s : State) : s.leaveRun.dstBase = s.dstBase := rfl
@[simp] theorem State.leaveRun_height (s : State) : s.leaveRun.height = s.height := rfl
@[simp] theorem State.leaveRun_width (s : State) : s.leaveRun.width = s.width := rfl
@[simp] theorem State.leaveRun_channels (s : State) : s.leaveRun.channels = s.channels := rfl
@[simp] theorem State.leaveRun_irqEn (s : State) : s.leaveRun.irqEn = s.irqEn := rfl
@[simp] theorem State.leaveRun_errAddr (s : State) : s.leaveRun.errAddr = s.errAddr := rfl
@[simp] theorem State.leaveRun_op (s : State) : s.leaveRun.op = s.op := rfl
@[simp] theorem State.leaveRun_disturbed (s : State) : s.leaveRun.disturbed = s.disturbed := rfl
@[simp] theorem State.leaveRun_eng (s : State) : s.leaveRun.eng = s.eng := rfl
@[simp] theorem State.leaveRun_mem (s : State) : s.leaveRun.mem = s.mem := rfl
@[simp] theorem State.leaveRun_resp (s : State) : s.leaveRun.resp = s.resp := rfl
@[simp] theorem State.leaveRun_hostByte (s : State) : s.leaveRun.hostByte = s.hostByte := rfl
@[simp] theorem State.leaveRun_schedule (s : State) : s.leaveRun.schedule = s.schedule := rfl
@[simp] theorem State.leaveRun_program (s : State) : s.leaveRun.program = s.program := rfl
@[simp] theorem State.leaveRun_epoch (s : State) : s.leaveRun.epoch = s.epoch := rfl
@[simp] theorem State.leaveRun_pixels (s : State) : s.leaveRun.pixels = s.pixels := rfl
@[simp] theorem State.leaveRun_len (s : State) : s.leaveRun.len = s.len := rfl
@[simp] theorem State.leaveRun_src (s : State) : s.leaveRun.src = s.src := rfl
@[simp] theorem State.leaveRun_dst (s : State) : s.leaveRun.dst = s.dst := rfl
@[simp] theorem State.leaveRun_inSource (s : State) (a : Nat) : s.leaveRun.inSource a = s.inSource a := rfl
@[simp] theorem State.leaveRun_inDest (s : State) (a : Nat) : s.leaveRun.inDest a = s.inDest a := rfl
@[simp] theorem State.leaveRun_checkOperands (s : State) (p : Op) : s.leaveRun.checkOperands p = s.checkOperands p := rfl

/-! ### `State.writeDest` -/

@[simp] theorem State.writeDest_platform (s : State) (bs : List Byte) : (s.writeDest bs).platform = s.platform := rfl
@[simp] theorem State.writeDest_rst (s : State) (bs : List Byte) : (s.writeDest bs).rst = s.rst := rfl
@[simp] theorem State.writeDest_status (s : State) (bs : List Byte) : (s.writeDest bs).status = s.status := rfl
@[simp] theorem State.writeDest_key (s : State) (bs : List Byte) : (s.writeDest bs).key = s.key := rfl
@[simp] theorem State.writeDest_srcBase (s : State) (bs : List Byte) : (s.writeDest bs).srcBase = s.srcBase := rfl
@[simp] theorem State.writeDest_dstBase (s : State) (bs : List Byte) : (s.writeDest bs).dstBase = s.dstBase := rfl
@[simp] theorem State.writeDest_height (s : State) (bs : List Byte) : (s.writeDest bs).height = s.height := rfl
@[simp] theorem State.writeDest_width (s : State) (bs : List Byte) : (s.writeDest bs).width = s.width := rfl
@[simp] theorem State.writeDest_channels (s : State) (bs : List Byte) : (s.writeDest bs).channels = s.channels := rfl
@[simp] theorem State.writeDest_irqEn (s : State) (bs : List Byte) : (s.writeDest bs).irqEn = s.irqEn := rfl
@[simp] theorem State.writeDest_errAddr (s : State) (bs : List Byte) : (s.writeDest bs).errAddr = s.errAddr := rfl
@[simp] theorem State.writeDest_op (s : State) (bs : List Byte) : (s.writeDest bs).op = s.op := rfl
@[simp] theorem State.writeDest_disturbed (s : State) (bs : List Byte) : (s.writeDest bs).disturbed = s.disturbed := rfl
@[simp] theorem State.writeDest_eng (s : State) (bs : List Byte) : (s.writeDest bs).eng = s.eng := rfl
@[simp] theorem State.writeDest_mem (s : State) (bs : List Byte) : (s.writeDest bs).mem = s.mem.writeBytes s.dst bs := rfl
@[simp] theorem State.writeDest_resp (s : State) (bs : List Byte) : (s.writeDest bs).resp = s.resp := rfl
@[simp] theorem State.writeDest_hostByte (s : State) (bs : List Byte) : (s.writeDest bs).hostByte = s.hostByte := rfl
@[simp] theorem State.writeDest_schedule (s : State) (bs : List Byte) : (s.writeDest bs).schedule = s.schedule := rfl
@[simp] theorem State.writeDest_program (s : State) (bs : List Byte) : (s.writeDest bs).program = s.program := rfl
@[simp] theorem State.writeDest_epoch (s : State) (bs : List Byte) : (s.writeDest bs).epoch = s.epoch := rfl
@[simp] theorem State.writeDest_pixels (s : State) (bs : List Byte) : (s.writeDest bs).pixels = s.pixels := rfl
@[simp] theorem State.writeDest_len (s : State) (bs : List Byte) : (s.writeDest bs).len = s.len := rfl
@[simp] theorem State.writeDest_src (s : State) (bs : List Byte) : (s.writeDest bs).src = s.src := rfl
@[simp] theorem State.writeDest_dst (s : State) (bs : List Byte) : (s.writeDest bs).dst = s.dst := rfl
@[simp] theorem State.writeDest_inSource (s : State) (bs : List Byte) (a : Nat) : (s.writeDest bs).inSource a = s.inSource a := rfl
@[simp] theorem State.writeDest_inDest (s : State) (bs : List Byte) (a : Nat) : (s.writeDest bs).inDest a = s.inDest a := rfl
@[simp] theorem State.writeDest_checkOperands (s : State) (bs : List Byte) (p : Op) : (s.writeDest bs).checkOperands p = s.checkOperands p := rfl

/-! ### `State.freeDest` -/

@[simp] theorem State.freeDest_platform (s : State) : s.freeDest.platform = s.platform := rfl
@[simp] theorem State.freeDest_rst (s : State) : s.freeDest.rst = s.rst := rfl
@[simp] theorem State.freeDest_status (s : State) : s.freeDest.status = s.status := rfl
@[simp] theorem State.freeDest_key (s : State) : s.freeDest.key = s.key := rfl
@[simp] theorem State.freeDest_srcBase (s : State) : s.freeDest.srcBase = s.srcBase := rfl
@[simp] theorem State.freeDest_dstBase (s : State) : s.freeDest.dstBase = s.dstBase := rfl
@[simp] theorem State.freeDest_height (s : State) : s.freeDest.height = s.height := rfl
@[simp] theorem State.freeDest_width (s : State) : s.freeDest.width = s.width := rfl
@[simp] theorem State.freeDest_channels (s : State) : s.freeDest.channels = s.channels := rfl
@[simp] theorem State.freeDest_irqEn (s : State) : s.freeDest.irqEn = s.irqEn := rfl
@[simp] theorem State.freeDest_errAddr (s : State) : s.freeDest.errAddr = s.errAddr := rfl
@[simp] theorem State.freeDest_op (s : State) : s.freeDest.op = s.op := rfl
@[simp] theorem State.freeDest_disturbed (s : State) : s.freeDest.disturbed = s.disturbed := rfl
@[simp] theorem State.freeDest_eng (s : State) : s.freeDest.eng = s.eng := rfl
@[simp] theorem State.freeDest_mem (s : State) : s.freeDest.mem = s.mem.writeBytes s.dst (freeBytes s.epoch s.len) := rfl
@[simp] theorem State.freeDest_resp (s : State) : s.freeDest.resp = s.resp := rfl
@[simp] theorem State.freeDest_hostByte (s : State) : s.freeDest.hostByte = s.hostByte := rfl
@[simp] theorem State.freeDest_schedule (s : State) : s.freeDest.schedule = s.schedule := rfl
@[simp] theorem State.freeDest_program (s : State) : s.freeDest.program = s.program := rfl
@[simp] theorem State.freeDest_epoch (s : State) : s.freeDest.epoch = s.epoch := rfl
@[simp] theorem State.freeDest_pixels (s : State) : s.freeDest.pixels = s.pixels := rfl
@[simp] theorem State.freeDest_len (s : State) : s.freeDest.len = s.len := rfl
@[simp] theorem State.freeDest_src (s : State) : s.freeDest.src = s.src := rfl
@[simp] theorem State.freeDest_dst (s : State) : s.freeDest.dst = s.dst := rfl
@[simp] theorem State.freeDest_inSource (s : State) (a : Nat) : s.freeDest.inSource a = s.inSource a := rfl
@[simp] theorem State.freeDest_inDest (s : State) (a : Nat) : s.freeDest.inDest a = s.inDest a := rfl
@[simp] theorem State.freeDest_checkOperands (s : State) (p : Op) : s.freeDest.checkOperands p = s.checkOperands p := rfl

/-! ### `State.abandon` and `State.resetBlock` (R151, R152) -/

@[simp] theorem State.abandon_platform (s : State) : s.abandon.platform = s.platform := by
  unfold State.abandon
  split <;> simp
@[simp] theorem State.abandon_rst (s : State) : s.abandon.rst = s.rst := by
  unfold State.abandon
  split <;> simp
@[simp] theorem State.abandon_status (s : State) : s.abandon.status = s.status := by
  unfold State.abandon
  split <;> simp
@[simp] theorem State.abandon_key (s : State) : s.abandon.key = s.key := by
  unfold State.abandon
  split <;> simp
@[simp] theorem State.abandon_srcBase (s : State) : s.abandon.srcBase = s.srcBase := by
  unfold State.abandon
  split <;> simp
@[simp] theorem State.abandon_dstBase (s : State) : s.abandon.dstBase = s.dstBase := by
  unfold State.abandon
  split <;> simp
@[simp] theorem State.abandon_height (s : State) : s.abandon.height = s.height := by
  unfold State.abandon
  split <;> simp
@[simp] theorem State.abandon_width (s : State) : s.abandon.width = s.width := by
  unfold State.abandon
  split <;> simp
@[simp] theorem State.abandon_channels (s : State) : s.abandon.channels = s.channels := by
  unfold State.abandon
  split <;> simp
@[simp] theorem State.abandon_irqEn (s : State) : s.abandon.irqEn = s.irqEn := by
  unfold State.abandon
  split <;> simp
@[simp] theorem State.abandon_errAddr (s : State) : s.abandon.errAddr = s.errAddr := by
  unfold State.abandon
  split <;> simp
@[simp] theorem State.abandon_op (s : State) : s.abandon.op = s.op := by
  unfold State.abandon
  split <;> simp
@[simp] theorem State.abandon_disturbed (s : State) : s.abandon.disturbed = s.disturbed := by
  unfold State.abandon
  split <;> simp
@[simp] theorem State.abandon_eng (s : State) : s.abandon.eng = s.eng := by
  unfold State.abandon
  split <;> simp
theorem State.abandon_mem (s : State) : s.abandon.mem = if s.status.busy then s.mem.writeBytes s.dst (freeBytes s.epoch s.len) else s.mem := by
  unfold State.abandon
  split <;> simp
@[simp] theorem State.abandon_resp (s : State) : s.abandon.resp = s.resp := by
  unfold State.abandon
  split <;> simp
@[simp] theorem State.abandon_hostByte (s : State) : s.abandon.hostByte = s.hostByte := by
  unfold State.abandon
  split <;> simp
@[simp] theorem State.abandon_schedule (s : State) : s.abandon.schedule = s.schedule := by
  unfold State.abandon
  split <;> simp
@[simp] theorem State.abandon_program (s : State) : s.abandon.program = s.program := by
  unfold State.abandon
  split <;> simp
@[simp] theorem State.abandon_epoch (s : State) : s.abandon.epoch = s.epoch := by
  unfold State.abandon
  split <;> simp
@[simp] theorem State.resetBlock_platform (s : State) (l : Bool) : (s.resetBlock l).platform = s.platform := by
  simp [State.resetBlock]
@[simp] theorem State.resetBlock_rst (s : State) (l : Bool) : (s.resetBlock l).rst = l := rfl
@[simp] theorem State.resetBlock_status (s : State) (l : Bool) : (s.resetBlock l).status = { busy := false, done := false, err := false, ign := false, errCode := .none } := rfl
@[simp] theorem State.resetBlock_key (s : State) (l : Bool) : (s.resetBlock l).key = 0#32 := rfl
@[simp] theorem State.resetBlock_srcBase (s : State) (l : Bool) : (s.resetBlock l).srcBase = 0#32 := rfl
@[simp] theorem State.resetBlock_dstBase (s : State) (l : Bool) : (s.resetBlock l).dstBase = 0#32 := rfl
@[simp] theorem State.resetBlock_height (s : State) (l : Bool) : (s.resetBlock l).height = 0#16 := rfl
@[simp] theorem State.resetBlock_width (s : State) (l : Bool) : (s.resetBlock l).width = 0#16 := rfl
@[simp] theorem State.resetBlock_channels (s : State) (l : Bool) : (s.resetBlock l).channels = 3#8 := rfl
@[simp] theorem State.resetBlock_irqEn (s : State) (l : Bool) : (s.resetBlock l).irqEn = 0#2 := rfl
@[simp] theorem State.resetBlock_errAddr (s : State) (l : Bool) : (s.resetBlock l).errAddr = 0#32 := rfl
@[simp] theorem State.resetBlock_op (s : State) (l : Bool) : (s.resetBlock l).op = Config.freeOp s.epoch := by
  simp [State.resetBlock]
@[simp] theorem State.resetBlock_disturbed (s : State) (l : Bool) : (s.resetBlock l).disturbed = false := rfl
@[simp] theorem State.resetBlock_eng (s : State) (l : Bool) : (s.resetBlock l).eng = Internal.unspecified s.epoch := by
  simp [State.resetBlock]
theorem State.resetBlock_mem (s : State) (l : Bool) : (s.resetBlock l).mem = s.abandon.mem := rfl
@[simp] theorem State.resetBlock_resp (s : State) (l : Bool) : (s.resetBlock l).resp = s.resp := by
  simp [State.resetBlock]
@[simp] theorem State.resetBlock_hostByte (s : State) (l : Bool) : (s.resetBlock l).hostByte = s.hostByte := by
  simp [State.resetBlock]
@[simp] theorem State.resetBlock_schedule (s : State) (l : Bool) : (s.resetBlock l).schedule = s.schedule := by
  simp [State.resetBlock]
@[simp] theorem State.resetBlock_program (s : State) (l : Bool) : (s.resetBlock l).program = s.program := by
  simp [State.resetBlock]
@[simp] theorem State.resetBlock_epoch (s : State) (l : Bool) : (s.resetBlock l).epoch = s.epoch + 1 := by
  simp [State.resetBlock]

end Sys2Proof.Machine
end

