-- ==== Sys2Proof/Machine/Result.lean ====
section
/-! DEFINITION. The result function of 40_sequencer.md R82, by the table of that rule; `Laws.Commands` proves that every
command instruction ends with it. -/

namespace Sys2Proof.Machine

/-- `Result(op, Key, H, W, src)` of the command that `s` would run (R82). -/
def State.result (s : State) : Op → List Byte
  | ⟨.xor, .enc⟩ => xorEncResult s.key s.pixels s.sourceBytes s.eng
  | ⟨.xor, .dec⟩ => xorDecResult s.key s.pixels s.sourceBytes s.eng
  | ⟨.swap, .enc⟩ => swapEncResult s.key s.pixels s.sourceBytes s.eng
  | ⟨.swap, .dec⟩ => swapDecResult s.key s.pixels s.sourceBytes s.eng
  | ⟨.math, .enc⟩ => mathEncResult s.key s.pixels s.sourceBytes
  | ⟨.math, .dec⟩ => mathDecResult s.key s.pixels s.sourceBytes
  | ⟨.shuffle, .enc⟩ => shufEncResult s.key s.pixels s.sourceBytes s.eng
  | ⟨.shuffle, .dec⟩ => shufDecResult s.key s.pixels s.sourceBytes s.eng

end Sys2Proof.Machine
end

