-- ==== Sys2Proof/Laws/Commands.lean ====
section
/-! SUPPORT. What the sequencer's operations and the commands can do, each said once: how a running command ends, what a
command word that arrives does, and that every command ends with the result function of R82. -/

namespace Sys2Proof.Machine

/-! ### The port -/

/-- An aligned access out of reset takes effect (R76, R77). -/
theorem State.portAccess_aligned {s : State} {off : BitVec 6} (access : State → State) (hr : s.rst = false)
    (ha : offsetAligned off = true) : s.portAccess off access = .next (access s) := by
  simp [State.portAccess, hr, ha]

/-- What a register access can answer. -/
theorem State.portAccess_next {s t : State} {off : BitVec 6} {access : State → State}
    (h : s.portAccess off access = .next t) : s.rst = false ∧ (t = access s ∨ t = s.respond .busError) := by
  unfold State.portAccess at h
  split at h
  · cases h
  · rename_i hr
    refine ⟨by simpa using hr, ?_⟩
    split at h
    · exact .inl (by cases h; rfl)
    · exact .inr (by cases h; rfl)

/-- RD and WR as accesses on the port. -/
theorem exec_rd (off : BitVec 6) (s : State) :
    exec (.rd off) s = s.portAccess off fun t => t.respond (.data (t.readReg (regAt off))) := rfl

theorem exec_wr (off : BitVec 6) (d : Word) (s : State) :
    exec (.wr off d) s = s.portAccess off fun t => (t.writeReg d (regAt off)).respond .done := rfl

/-! What a write does to each register (R77). -/

@[simp] theorem State.writeReg_id (d : Word) (s : State) : s.writeReg d .id = s := rfl
@[simp] theorem State.writeReg_caps (d : Word) (s : State) : s.writeReg d .caps = s := rfl
@[simp] theorem State.writeReg_errAddr (d : Word) (s : State) : s.writeReg d .errAddr = s := rfl
@[simp] theorem State.writeReg_reserved (d : Word) (s : State) : s.writeReg d .reserved = s := rfl
@[simp] theorem State.writeReg_cmd (d : Word) (s : State) : s.writeReg d .cmd = s.writeCommand d := rfl
@[simp] theorem State.writeReg_status (d : Word) (s : State) : s.writeReg d .status = s.writeStatus d := rfl
@[simp] theorem State.writeReg_irqEn (d : Word) (s : State) : s.writeReg d .irqEn = { s with irqEn := d.setWidth 2 } := rfl
@[simp] theorem State.writeReg_key (d : Word) (s : State) :
    s.writeReg d .key = s.lockedWrite fun t => { t with key := d } := rfl
@[simp] theorem State.writeReg_srcBase (d : Word) (s : State) :
    s.writeReg d .srcBase = s.lockedWrite fun t => { t with srcBase := d } := rfl
@[simp] theorem State.writeReg_dstBase (d : Word) (s : State) :
    s.writeReg d .dstBase = s.lockedWrite fun t => { t with dstBase := d } := rfl
@[simp] theorem State.writeReg_height (d : Word) (s : State) :
    s.writeReg d .height = s.lockedWrite fun t => { t with height := d.setWidth 16 } := rfl
@[simp] theorem State.writeReg_width (d : Word) (s : State) :
    s.writeReg d .width = s.lockedWrite fun t => { t with width := d.setWidth 16 } := rfl
@[simp] theorem State.writeReg_channels (d : Word) (s : State) :
    s.writeReg d .channels = s.lockedWrite fun t => { t with channels := d.setWidth 8 } := rfl

/-- A locked write is ignored while BUSY and made while IDLE (R41). -/
theorem State.lockedWrite_busy {s : State} (write : State → State) (h : s.status.busy = true) :
    s.lockedWrite write = s.ignoreWrite := by
  simp [State.lockedWrite, h]

theorem State.lockedWrite_idle {s : State} (write : State → State) (h : s.status.busy = false) :
    s.lockedWrite write = write s := by
  simp [State.lockedWrite, h]

/-- What a write to STATUS leaves (R33 to R37): only the status fields are touched. -/
theorem State.writeStatus_eq (s : State) (d : Word) :
    s.writeStatus d = { s with
      status :=
        { busy := s.status.busy
          done := s.status.done && !d.getLsbD 1
          err := s.status.err && !d.getLsbD 2
          ign := s.status.ign && !d.getLsbD 3
          errCode := if d.getLsbD 2 then .none else s.status.errCode } } := by
  unfold State.writeStatus
  cases d.getLsbD 1 <;> cases d.getLsbD 2 <;> cases d.getLsbD 3 <;> simp [State.clearDone, State.clearError, State.clearIgn]

/-- What the host's read of a buffer byte can do (R61). -/
theorem State.hostRead_cases (s : State) (addr : Word) :
    (s.status.busy = true ∧ s.inDest addr.toNat = true ∧
      s.hostRead addr = { s with hostByte := Config.freeByte s.epoch 0, epoch := s.epoch + 1 }) ∨
    (¬(s.status.busy = true ∧ s.inDest addr.toNat = true) ∧ s.hostRead addr = { s with hostByte := s.mem.read addr.toNat }) := by
  unfold State.hostRead
  by_cases h : s.status.busy = true ∧ s.inDest addr.toNat = true
  · exact .inl ⟨h.1, h.2, by simp [h]⟩
  · exact .inr ⟨h, if_neg (by simpa using h)⟩

/-- What driving the reset input can do (R151). -/
theorem State.driveReset_cases (s : State) (level : Bool) :
    ((level = true ∨ s.rst = true) ∧ s.driveReset level = s.resetBlock level) ∨
    (level = false ∧ s.rst = false ∧ s.driveReset level = s) := by
  unfold State.driveReset
  cases level <;> cases h : s.rst <;> simp

/-- What a bus transaction that decodes is (R69, R76, R77). -/
theorem decodeBus_ok {a : BusAccess} {i : Instr} (h : decodeBus a = .ok i) :
    offsetAligned a.addr = true ∧
      ((a.write = true ∧ i = .wr a.addr a.data) ∨ (a.write = false ∧ i = .rd a.addr)) := by
  unfold decodeBus at h
  by_cases h1 : a.size = .word <;> by_cases h2 : a.strobe = 15#4 <;> by_cases h3 : offsetAligned a.addr = true <;>
    simp only [h1, h2, h3, if_true, if_false, Bool.false_eq_true, reduceCtorEq] at h
  refine ⟨h3, ?_⟩
  cases hw : a.write <;> simp [hw] at h <;> simp [h]

/-! ### The end of a running command -/

/-- How the engine's move on a running command can go (R83, R84, R146). -/
theorem State.finish_cases (s : State) (r : List Byte) :
    (s.erring = [] ∧ s.stalls = true ∧ s.finish r = s) ∨
    (s.erring = [] ∧ s.stalls = false ∧ s.finish r = s.complete r) ∨
    (∃ x more, s.erring = x :: more ∧ s.finish r = s.busErrorEnd x more) := by
  unfold State.finish
  split
  · rename_i x more h
    exact .inr (.inr ⟨x, more, h, rfl⟩)
  · rename_i h
    by_cases hs : s.stalls = true
    · exact .inl ⟨h, hs, by simp [hs]⟩
    · exact .inr (.inl ⟨h, by simpa using hs, by simp [hs]⟩)

/-- The address that a bus error records is that of an erring access (R84). -/
theorem pickErring_mem (choice : Nat) (x : Word × AccessDir) (more : List (Word × AccessDir)) :
    ∃ y ∈ x :: more, pickErring choice x more = y.1 := by
  cases more with
  | nil => exact ⟨x, by simp, rfl⟩
  | cons y rest =>
    have h : choice % (rest.length + 2) < (x :: y :: rest).length := by
      have := Nat.mod_lt choice (show 0 < rest.length + 2 by omega)
      simp only [List.length_cons]
      omega
    refine ⟨(x :: y :: rest)[choice % (rest.length + 2)], List.getElem_mem h, ?_⟩
    rw [pickErring, List.getD_eq_getElem _ _ h]

theorem State.complete_status (s : State) (r : List Byte) :
    (s.complete r).status = { s.status with busy := false, done := true } := by
  unfold State.complete
  split <;> simp

theorem State.complete_mem (s : State) (r : List Byte) :
    (s.complete r).mem = s.mem.writeBytes s.dst (if s.disturbed then freeBytes s.epoch s.len else r) := by
  unfold State.complete
  split <;> rename_i h <;> simp

theorem State.complete_errAddr (s : State) (r : List Byte) : (s.complete r).errAddr = s.errAddr := by
  unfold State.complete
  split <;> simp

theorem State.complete_disturbed (s : State) (r : List Byte) : (s.complete r).disturbed = s.disturbed := by
  unfold State.complete
  split <;> simp

theorem State.complete_platform (s : State) (r : List Byte) : (s.complete r).platform = s.platform := by
  unfold State.complete
  split <;> simp

theorem State.complete_rst (s : State) (r : List Byte) : (s.complete r).rst = s.rst := by
  unfold State.complete
  split <;> simp

theorem State.complete_eng (s : State) (r : List Byte) : (s.complete r).eng = Internal.unspecified s.epoch := by
  unfold State.complete
  split <;> simp

theorem State.busErrorEnd_status (s : State) (x : Word × AccessDir) (more : List (Word × AccessDir)) :
    (s.busErrorEnd x more).status = { s.status with busy := false, err := true, errCode := .busError } := by
  simp [State.busErrorEnd]

theorem State.busErrorEnd_mem (s : State) (x : Word × AccessDir) (more : List (Word × AccessDir)) :
    (s.busErrorEnd x more).mem = s.mem.writeBytes s.dst (freeBytes s.epoch s.len) := by
  simp [State.busErrorEnd]

theorem State.busErrorEnd_errAddr (s : State) (x : Word × AccessDir) (more : List (Word × AccessDir)) :
    (s.busErrorEnd x more).errAddr = pickErring (Config.freeChoice s.epoch) x more := by
  simp [State.busErrorEnd]

theorem State.busErrorEnd_eng (s : State) (x : Word × AccessDir) (more : List (Word × AccessDir)) :
    (s.busErrorEnd x more).eng = Internal.unspecified s.epoch := by
  simp [State.busErrorEnd]

/-- The unspecified internal state has the generator's shape. -/
theorem Internal.unspecified_shape (epoch : Nat) :
    (Internal.unspecified epoch).prng.mt.length = 624 ∧ (Internal.unspecified epoch).prng.mti ≤ 624 ∧
      (Internal.unspecified epoch).cp.length = 3 := by
  refine ⟨by simp [Internal.unspecified], ?_, by simp [Internal.unspecified]⟩
  have := Nat.mod_lt (Config.freeMti epoch) (show 0 < 625 by omega)
  simp only [Internal.unspecified]
  omega

/-! ### Acceptance -/

/-- The check of a word sees nothing that the clearing of the outcome changes. -/
@[simp] theorem State.clearOutcome_check (s : State) (w : Word) : s.clearOutcome.check w = s.check w := rfl

/-- What a check that passes says (R79). -/
theorem State.check_ok {s : State} {w : Word} {op : Op} (h : s.check w = .ok op) :
    decodeOp w = .ok op ∧ s.checkOperands op = .none := by
  unfold State.check at h
  split at h
  · cases h
  · rename_i o ho
    split at h
    · rename_i hc
      cases h
      exact ⟨ho, hc⟩
    · cases h

/-- What a check that fails says (R79): the code is none of 0. -/
theorem State.check_error {s : State} {w : Word} {code : ErrCode} (h : s.check w = .error code) : code ≠ .none := by
  unfold State.check at h
  split at h
  · cases h
    simp
  · split at h
    · cases h
    · rename_i c hc
      cases h
      assumption

/-- What acceptance does (R78, R80, R81). -/
theorem State.accept_cases (s : State) (w : Word) :
    (∃ op, decodeOp w = .ok op ∧ s.checkOperands op = .none ∧ s.accept w = s.clearOutcome.start op) ∨
    (∃ code, s.check w = .error code ∧ code ≠ .none ∧ s.accept w = s.clearOutcome.raiseError code) := by
  unfold State.accept
  rw [State.clearOutcome_check]
  split
  · rename_i op h
    exact .inl ⟨op, (State.check_ok h).1, (State.check_ok h).2, rfl⟩
  · rename_i code h
    exact .inr ⟨code, h, State.check_error h, rfl⟩

/-! ### The commands -/

/-- Every command instruction is `State.command` with the result function of R82. -/
theorem exec_instr (op : Op) (s : State) : exec op.instr s = s.command op (s.result op) := by
  obtain ⟨m, d⟩ := op
  cases m <;> cases d <;> rfl

/-- A running command ends, or waits (R83, R84, R146). -/
theorem State.command_running {s : State} {op : Op} (r : List Byte) (hb : s.status.busy = true) (ho : s.op = op)
    (hr : s.rst = false) : s.command op r = .next (s.finish r) := by
  simp [State.command, hb, ho, hr]

/-- A command that is not running arrives at CMD (R71, R77). -/
theorem State.command_arrives {s : State} {op : Op} (r : List Byte) (h : ¬(s.status.busy = true ∧ s.op = op ∧ s.rst = false)) :
    s.command op r = s.portAccess Reg.cmd.offset fun t => (t.writeCommand op.word).respond .done := by
  rw [State.command, if_neg h]

/-! ### The method units -/

@[simp] theorem perSample_length (n : Nat) (f : Nat → Byte) : (perSample n f).length = 3 * n := by
  simp [perSample]

theorem getElem_perSample (n : Nat) (f : Nat → Byte) {a : Nat} (h : a < (perSample n f).length) : (perSample n f)[a] = f a := by
  simp [perSample]

theorem foldl_set_length {α β : Type} (l : List β) (idx : β → Nat) (val : β → α) (out : List α) :
    (l.foldl (fun o b => o.set (idx b) (val b)) out).length = out.length := by
  induction l generalizing out with
  | nil => rfl
  | cons b l ih => rw [List.foldl_cons, ih, List.length_set]

@[simp] theorem scatterPixels_length (n : Nat) (src : List Byte) (e : Internal) : (scatterPixels n src e).length = 3 * n := by
  rw [scatterPixels, foldl_set_length, List.length_replicate]

/-- The result of every command has LEN bytes (R82). -/
@[simp] theorem State.result_length (s : State) (op : Op) : (s.result op).length = s.len := by
  obtain ⟨m, d⟩ := op
  cases m <;> cases d <;>
    simp [State.result, xorEncResult, xorDecResult, xorCombine, swapEncResult, swapDecResult, gatherPixels, mathEncResult,
      mathDecResult, shufEncResult, shufDecResult, addNoise, removeNoise, State.len]

end Sys2Proof.Machine
end

