-- ==== Sys2Proof/Laws/Completion.lean ====
section
/-! SUPPORT. What a launched command leaves, once for all eight commands (40_sequencer.md R82, R83): the statements about one method
need only the entries of its result. -/

namespace Sys2Proof.Machine

/-- The two ranges of a command whose checks pass lie inside the address space and share no byte (R79). -/
theorem State.checkOperands_ranges {s : State} {op : Op} (h : s.checkOperands op = .none) (hl : 0 < s.len) :
    s.src + s.len ≤ 2 ^ 32 ∧ s.dst + s.len ≤ 2 ^ 32 ∧ (s.dst + s.len ≤ s.src ∨ s.src + s.len ≤ s.dst) := by
  unfold State.checkOperands at h
  split at h
  · cases h
  split at h
  · cases h
  rename_i h1
  split at h
  · cases h
  rename_i h2
  omega

/-- A swap command whose checks pass has at most PERM_DEPTH pixels (R79, R112). -/
theorem State.checkOperands_capacity {s : State} {d : Dir} (h : s.checkOperands ⟨.swap, d⟩ = .none) :
    s.pixels ≤ s.platform.permDepth.toNat := by
  unfold State.checkOperands at h
  split at h
  · cases h
  split at h
  · cases h
  split at h
  · cases h
  split at h
  · cases h
  rename_i h4
  simpa using h4

/-- The sample at an index of the source range (R16). -/
theorem State.getD_sourceBytes (s : State) {a : Nat} (h : a < s.len) : s.sourceBytes.getD a 0 = s.sourceAt a :=
  Memory.getD_readBytes _ _ _ h

/-- A byte of the source range is none of the destination range, while a command runs (R79). -/
theorem State.Inv.inDest_of_inSource {s : State} (h : s.Inv) (hb : s.status.busy = true) {a : Nat} (ha : s.inSource a = true) :
    s.inDest a = false := by
  simp only [State.inSource, State.inDest, Bool.and_eq_true, Bool.and_eq_false_iff, decide_eq_true_eq, decide_eq_false_iff_not] at ha ⊢
  have := State.checkOperands_ranges (h.accepted hb) (by omega)
  omega

/-- A store of LEN bytes at the destination changes no byte outside the destination range. -/
theorem State.read_writeBytes_dst (s : State) {bs : List Byte} (hl : bs.length = s.len) {a : Nat} (h : s.inDest a = false) :
    (s.mem.writeBytes s.dst bs).read a = s.mem.read a := by
  simp only [State.inDest, Bool.and_eq_false_iff, decide_eq_false_iff_not] at h
  exact Memory.read_writeBytes_outside _ _ _ (by omega)

/-- A command's end, by a store of LEN bytes at the destination, changes nothing that `SameOutside` names. -/
theorem State.complete_sameOutside (s : State) (r : List Byte) : s.SameOutside (s.complete r) := by
  unfold State.complete
  split <;> constructor <;> simp

theorem State.busErrorEnd_sameOutside (s : State) (x : Word × AccessDir) (more : List (Word × AccessDir)) :
    s.SameOutside (s.busErrorEnd x more) := by
  constructor <;> simp [State.busErrorEnd]

/-- A launched command completes (R83): its destination samples are the entries of its result. -/
theorem exec_launched {s : State} {op : Op} (hi : s.Inv) (h : s.Launched op) :
    ∃ t, exec op.instr s = .next t ∧ s.CompletedAs (fun a => (s.result op).getD a 0) t := by
  have hf : s.finish (s.result op) = s.complete (s.result op) := by
    rcases s.finish_cases (s.result op) with ⟨-, hs, -⟩ | ⟨-, -, e⟩ | ⟨x, more, he, -⟩
    · simp [h.answered] at hs
    · exact e
    · simp [h.admitted] at he
  refine ⟨s.complete (s.result op), ?_, ?_⟩
  · rw [exec_instr, State.command_running _ h.busy h.latched h.outOfReset, hf]
  · have hm : (s.complete (s.result op)).mem = s.mem.writeBytes s.dst (s.result op) := by
      rw [State.complete_mem, if_neg (by simp [h.undisturbed])]
    refine ⟨?_, ?_, ?_, ?_, ?_, ?_, ?_, s.complete_errAddr _, s.complete_disturbed _, s.complete_sameOutside _⟩
    · intro a ha
      have hl : a < (s.result op).length := by simpa using ha
      have hr := State.checkOperands_ranges (hi.accepted h.busy) (by omega)
      rw [hm, Memory.read_writeBytes_inside hi.memory (by simpa using hr.2.1) hl, List.getD_eq_getElem _ _ hl]
    · intro a ha
      rw [hm]
      exact s.read_writeBytes_dst (by simp) ha
    all_goals simp [State.complete_status]

/-- The same with the result's entries given by another function. -/
theorem exec_launched_as {s : State} {op : Op} {f : Nat → Byte} (hi : s.Inv) (h : s.Launched op)
    (hf : ∀ a, a < s.len → (s.result op).getD a 0 = f a) : ∃ t, exec op.instr s = .next t ∧ s.CompletedAs f t := by
  obtain ⟨t, ht, hc⟩ := exec_launched hi h
  exact ⟨t, ht, { hc with result := fun a ha => (hc.result a ha).trans (hf a ha) }⟩

/-! ### The entries of each result -/

theorem getD_perSample (n : Nat) (f : Nat → Byte) {a : Nat} (h : a < 3 * n) : (perSample n f).getD a 0 = f a := by
  rw [List.getD_eq_getElem _ _ (by simpa using h), getElem_perSample]

/-- Entry `a` of the XOR result (R102 to R104). -/
theorem getD_xorCombine (key : Word) (n : Nat) (src : List Byte) (e : Internal) {a : Nat} (h : a < 3 * n) :
    (xorCombine n src (loadXorStream key n e)).getD a 0 = src.getD a 0 ^^^ (wordAt (reseed key) a).setWidth 8 := by
  rw [xorCombine, getD_perSample _ _ h, xorUnit, loadXorStream, Store.get, getD_drawBytes _ _ h]
  rfl

/-- Entry `a` of the MATH results (R118, R119). -/
theorem getD_mathEncResult (key : Word) (n : Nat) (src : List Byte) {a : Nat} (h : a < 3 * n) :
    (mathEncResult key n src).getD a 0 = mathEnc key (src.getD a 0) := getD_perSample _ _ h

theorem getD_mathDecResult (key : Word) (n : Nat) (src : List Byte) {a : Nat} (h : a < 3 * n) :
    (mathDecResult key n src).getD a 0 = mathDec key (src.getD a 0) := getD_perSample _ _ h

end Sys2Proof.Machine
end

