-- ==== Sys2Proof/Laws/Decode.lean ====
section
/-! SUPPORT. The decoder of command words, said once: a word decodes to an operation exactly when it is the operation's
word (30_encoding.md R69, R71, R72). -/

namespace Sys2Proof

/-- The word of an operation decodes to it. -/
@[simp] theorem decodeOp_word (op : Op) : decodeOp op.word = .ok op := by
  obtain ⟨m, d⟩ := op
  cases m <;> cases d <;> rfl

/-- The word of an operation decodes to its instruction. -/
@[simp] theorem decodeCmdw_word (op : Op) : decodeCmdw op.word = .ok op.instr := by
  rw [decodeCmdw, decodeOp_word]

/-- A word with a bit of [31:5] set decodes to nothing (R72). -/
theorem decodeOp_of_ge {w : Word} (h : 32 ≤ w.toNat) : decodeOp w = .error .nonzeroHighBits := by
  unfold decodeOp
  rw [if_neg]
  intro hc
  have h1 := congrArg BitVec.toNat hc
  have h2 := w.isLt
  simp only [BitVec.extractLsb'_toNat, Nat.shiftRight_eq_div_pow, BitVec.toNat_ofNat] at h1
  omega

/-- Only the word of an operation decodes to it. -/
theorem decodeOp_ok_iff {w : Word} {op : Op} : decodeOp w = .ok op ↔ w = op.word := by
  refine ⟨fun h => ?_, fun h => by rw [h, decodeOp_word]⟩
  by_cases h0 : w.toNat < 32
  · obtain ⟨n, rfl⟩ : ∃ n : Fin 32, w = BitVec.ofNat 32 n := ⟨⟨w.toNat, h0⟩, by simp⟩
    clear h0
    obtain ⟨m, d⟩ := op
    revert n
    cases m <;> cases d <;> decide
  · rw [decodeOp_of_ge (by omega)] at h
    cases h

/-- What a command word that decodes is: the instruction of the operation whose word it is. -/
theorem decodeCmdw_ok_iff {w : Word} {i : Instr} : decodeCmdw w = .ok i ↔ ∃ op : Op, w = op.word ∧ i = op.instr := by
  unfold decodeCmdw
  cases h : decodeOp w with
  | ok op =>
    rw [decodeOp_ok_iff] at h
    subst h
    refine ⟨fun hi => ⟨op, rfl, by cases hi; rfl⟩, ?_⟩
    rintro ⟨op', hw, rfl⟩
    have := decodeOp_ok_iff.2 hw
    rw [decodeOp_word] at this
    cases this
    rfl
  | error e =>
    refine ⟨(by intro hi; cases hi), ?_⟩
    rintro ⟨op, rfl, -⟩
    rw [decodeOp_word] at h
    cases h

/-- Every register stands at a multiple of 4 (R22). -/
@[simp] theorem offsetAligned_offset (r : Reg) : offsetAligned r.offset = true := by
  cases r <;> decide

/-- The transaction of a register write at an aligned offset decodes to it (R69). -/
theorem decodeBus_writeAccess {off : BitVec 6} (h : offsetAligned off = true) (d : Word) :
    decodeBus (writeAccess off d) = .ok (.wr off d) := by
  simp [decodeBus, writeAccess, h]

/-- The transaction of a register read at an aligned offset decodes to it (R69). -/
theorem decodeBus_readAccess {off : BitVec 6} (h : offsetAligned off = true) : decodeBus (readAccess off) = .ok (.rd off) := by
  simp [decodeBus, readAccess, h]

end Sys2Proof
end

