-- ==== Sys2Proof/Laws/PerInstr.lean ====
section
/-! SUPPORT. A statement for all instructions, made per instruction: the numbered form of an instruction fits the bits it is said
to have (30_encoding.md R69, R71: a command word has exactly 32 bits). -/

namespace Sys2Proof.Laws.WordRange

/-- The number of an instruction is less than 2 to the number of its bits. -/
def Statement (i : Instr) : Prop := (encodeNumber i).2 < 2 ^ (encodeNumber i).1

theorem xorEnc : Statement .xorEnc := (Op.word ⟨.xor, .enc⟩).isLt
theorem xorDec : Statement .xorDec := (Op.word ⟨.xor, .dec⟩).isLt
theorem swapEnc : Statement .swapEnc := (Op.word ⟨.swap, .enc⟩).isLt
theorem swapDec : Statement .swapDec := (Op.word ⟨.swap, .dec⟩).isLt
theorem mathEnc : Statement .mathEnc := (Op.word ⟨.math, .enc⟩).isLt
theorem mathDec : Statement .mathDec := (Op.word ⟨.math, .dec⟩).isLt
theorem shufEnc : Statement .shufEnc := (Op.word ⟨.shuffle, .enc⟩).isLt
theorem shufDec : Statement .shufDec := (Op.word ⟨.shuffle, .dec⟩).isLt

theorem rd (off : BitVec 6) : Statement (.rd off) := by
  have := off.isLt
  simp only [Statement, encodeNumber]
  omega

theorem wr (off : BitVec 6) (data : Word) : Statement (.wr off data) := by
  have := off.isLt
  have := data.isLt
  simp only [Statement, encodeNumber]
  omega

end Sys2Proof.Laws.WordRange
end

