-- ==== Sys2Proof/Laws/Step.lean ====
section
/-! SUPPORT. Everything a step can do when it answers a next state, once (40_sequencer.md R89); the later proofs split on
`StepCase` and unfold `step` no more. -/

namespace Sys2Proof.Machine

/-- `u` is `s` when the engine takes its turn: nothing is scheduled, or the turn itself is, and is then passed. -/
def EngineTurn (s u : State) : Prop :=
  (s.schedule = [] ∧ u = s) ∨ ∃ rest : List Event, s.schedule = .engine :: rest ∧ u = s.withSchedule rest

/-- `u` is `s` with its schedule and the host's program moved on. -/
def Passed (s u : State) : Prop := ∃ es p, u = (s.withSchedule es).withProgram p

/-- What a step from `s` to `t` can be. -/
inductive StepCase (s t : State) : Prop where
  /-- The running command ends or waits (R83, R84, R146). -/
  | engine (u : State) (turn : EngineTurn s u) (busy : s.status.busy = true) (rst : s.rst = false)
      (eq : t = u.finish (u.result u.op))
  /-- The engine has nothing to do (R150). -/
  | idle (u : State) (turn : EngineTurn s u) (idle : s.status.busy = false ∨ s.rst = true) (eq : t = u)
  /-- The host's program is over. -/
  | hostDone (rest : List Event) (sched : s.schedule = .host :: rest) (empty : s.program = []) (eq : t = s.withSchedule rest)
  /-- A register access runs (R76, R77). -/
  | access (u : State) (passed : Passed s u) (a : BusAccess) (i : Instr) (next : s.nextAccess = some (s.platform.regPage, a))
      (rst : s.rst = false) (dec : decodeBus a = .ok i) (run : exec i u = .next t)
  /-- One turn of `WAITIDLE` (R75): STATUS is read, and the loop goes on while its bit 0 is 1. -/
  | waitIdle (rest : List Event) (p : List HostStmt) (sched : s.schedule = .host :: rest) (prog : s.program = .waitIdle :: p)
      (rst : s.rst = false)
      (eq : t = ((s.withSchedule rest).withProgram (if s.status.word.getLsbD 0 then .waitIdle :: p else p)).respond
        (.data s.status.word))
  /-- A register access is refused with a bus error response (R55). -/
  | refusedAccess (u : State) (passed : Passed s u) (a : BusAccess) (e : DecodeError)
      (next : s.nextAccess = some (s.platform.regPage, a)) (rst : s.rst = false) (dec : decodeBus a = .error e)
      (eq : t = u.respond .busError)
  /-- The host writes a buffer byte. -/
  | hostWrite (u : State) (passed : Passed s u) (addr : Word) (v : Byte)
      (move : (∃ rest, s.schedule = .memWrite addr v :: rest) ∨ ∃ rest p, s.schedule = .host :: rest ∧ s.program = .mw addr v :: p)
      (eq : t = u.hostWrite addr v)
  /-- The host reads a buffer byte. -/
  | hostRead (u : State) (passed : Passed s u) (addr : Word)
      (move : (∃ rest, s.schedule = .memRead addr :: rest) ∨ ∃ rest p, s.schedule = .host :: rest ∧ s.program = .mr addr :: p)
      (eq : t = u.hostRead addr)
  /-- The reset input is driven (R151). -/
  | reset (level : Bool) (rest : List Event) (sched : s.schedule = .rst level :: rest)
      (eq : t = (s.withSchedule rest).driveReset level)

/-- The turn passes nothing but the schedule. -/
theorem EngineTurn.eq_withSchedule {s u : State} (h : EngineTurn s u) : ∃ es, u = s.withSchedule es := by
  rcases h with ⟨-, rfl⟩ | ⟨rest, -, rfl⟩
  · exact ⟨u.schedule, rfl⟩
  · exact ⟨rest, rfl⟩

/-- What the engine's turn does. -/
theorem engineTurn_cases {s u t : State} (turn : EngineTurn s u)
    (h : (match u.engineMove with
      | .run i v => exec i v
      | .effect v => .next v
      | .fault f => .fault f
      | .refuse r => .refused r) = Host.Outcome.next t) : StepCase s t := by
  obtain ⟨es, hu⟩ := turn.eq_withSchedule
  unfold State.engineMove at h
  by_cases hb : u.status.busy = true ∧ u.rst = false
  · simp only [hb.1, hb.2, Bool.not_false, Bool.and_self, if_true] at h
    rw [exec_instr, State.command_running _ hb.1 rfl hb.2] at h
    refine .engine u turn ?_ ?_ (by cases h; rfl)
    · simpa [hu] using hb.1
    · simpa [hu] using hb.2
  · have hn : (u.status.busy && !u.rst) = false := by
      simpa [Bool.and_eq_false_iff, not_and_or] using hb
    simp only [hn, Bool.false_eq_true, if_false] at h
    refine .idle u turn ?_ (by cases h; rfl)
    subst hu
    rcases not_and_or.1 hb with hb | hb
    · exact .inl (by simpa using hb)
    · exact .inr (by simpa using hb)

/-- What a bus transaction that answers a next state has done. -/
theorem busMove_cases {s u t : State} {page : BitVec 26} {a : BusAccess} (passed : Passed s u)
    (next : s.nextAccess = some (page, a))
    (h : (match u.busMove page a with
      | .run i v => exec i v
      | .effect v => .next v
      | .fault f => .fault f
      | .refuse r => .refused r) = Host.Outcome.next t) : StepCase s t := by
  obtain ⟨es, p, hu⟩ := passed
  have hplat : u.platform = s.platform := by rw [hu]; rfl
  have hrst : u.rst = s.rst := by rw [hu]; rfl
  unfold State.busMove at h
  rw [hplat, hrst] at h
  by_cases hp : page = s.platform.regPage
  · subst hp
    by_cases hr : s.rst = true
    · simp [hr] at h
    · simp only [hr] at h
      cases hd : decodeBus a with
      | ok i =>
        simp only [hd] at h
        exact .access u ⟨es, p, hu⟩ a i next (by simpa using hr) hd h
      | error e =>
        simp only [hd] at h
        exact .refusedAccess u ⟨es, p, hu⟩ a e next (by simpa using hr) hd (by cases h; rfl)
  · simp [hp] at h

/-- What one turn of `WAITIDLE` does: out of reset, the read, and the test of its result (R75); in reset it is refused. -/
theorem State.pollIdle_eq (s : State) :
    s.pollIdle = if s.rst then .refuse .registerAccessInReset
      else .effect ((s.respond (.data s.status.word)).withProgram
        (if s.status.word.getLsbD 0 then s.program else s.program.tail)) := by
  unfold State.pollIdle execRd
  by_cases hr : s.rst = true
  · rw [if_pos hr]
    simp [State.portAccess, hr]
  · rw [if_neg hr, State.portAccess_aligned _ (by simpa using hr) (by decide)]
    show Move.effect (if s.status.word.getLsbD 0 then _ else _) = _
    split <;> rfl

/-- What the host's next statement can do (R74, R75). -/
theorem hostMove_cases {s t : State} {rest : List Event} (hs : s.schedule = .host :: rest)
    (h : (match (s.withSchedule rest).hostMove with
      | .run i v => exec i v
      | .effect v => .next v
      | .fault f => .fault f
      | .refuse r => .refused r) = Host.Outcome.next t) : StepCase s t := by
  unfold State.hostMove at h
  rw [State.withSchedule_program] at h
  rcases hp : s.program with _ | ⟨c, p⟩
  · rw [hp] at h
    exact .hostDone rest hs hp (by cases h; rfl)
  · rw [hp] at h
    cases c with
    | wr r d => exact busMove_cases ⟨rest, p, rfl⟩ (by simp [State.nextAccess, hs, hp]) h
    | rd r => exact busMove_cases ⟨rest, p, rfl⟩ (by simp [State.nextAccess, hs, hp]) h
    | mw addr v => exact .hostWrite _ ⟨rest, p, rfl⟩ addr v (.inr ⟨rest, p, hs, hp⟩) (by cases h; rfl)
    | mr addr => exact .hostRead _ ⟨rest, p, rfl⟩ addr (.inr ⟨rest, p, hs, hp⟩) (by cases h; rfl)
    | waitIdle =>
      simp only [State.pollIdle_eq, State.withSchedule_rst, State.withSchedule_program, State.withSchedule_status, hp] at h
      by_cases hr : s.rst = true
      · simp [hr] at h
      · simp only [hr] at h
        exact .waitIdle rest p hs hp (by simpa using hr) (by cases h; rfl)

/-- What a step that answers a next state has done. -/
theorem step_cases {s t : State} (h : step s = .next t) : StepCase s t := by
  unfold step State.nextMove at h
  rcases hs : s.schedule with _ | ⟨e, rest⟩
  · rw [hs] at h
    exact engineTurn_cases (.inl ⟨hs, rfl⟩) h
  · rw [hs] at h
    cases e with
    | bus page a => exact busMove_cases ⟨rest, s.program, rfl⟩ (by simp [State.nextAccess, hs]) h
    | host => exact hostMove_cases hs h
    | engine => exact engineTurn_cases (.inr ⟨rest, hs, rfl⟩) h
    | memWrite addr v => exact .hostWrite _ ⟨rest, s.program, rfl⟩ addr v (.inl ⟨rest, hs⟩) (by cases h; rfl)
    | memRead addr => exact .hostRead _ ⟨rest, s.program, rfl⟩ addr (.inl ⟨rest, hs⟩) (by cases h; rfl)
    | rst level => exact .reset level rest hs (by cases h; rfl)

end Sys2Proof.Machine
end

