-- ==== Sys2Proof/Machine/HostProgram.lean ====
section
/-! DEFINITION. The pseudo-instructions of the host notation (30_encoding.md R75) as programs of its statements (R74). `WAITIDLE` is
the statement `HostStmt.waitIdle`, whose loop is `State.pollIdle`. -/

namespace Sys2Proof.Machine.HostProgram

/-- `CMD <mnemonic>` (R75): the command word of R71, written to CMD. -/
def cmd (op : Op) : List HostStmt := [.wr .cmd op.word]

/-- `RUN <mnemonic>` (R75): `CMD`, then `WAITIDLE`. -/
def run (op : Op) : List HostStmt := cmd op ++ [.waitIdle]

/-- `CLRSTAT` (R75). -/
def clrStat : List HostStmt := [.wr .status 0x0000000E#32]

/-- `SETUP key, src, dst, h, w` (R75). -/
def setup (key src dst h w : Word) : List HostStmt :=
  [.wr .key key, .wr .srcBase src, .wr .dstBase dst, .wr .height h, .wr .width w]

end Sys2Proof.Machine.HostProgram
end

