-- ==== Sys2Proof/Tests/Slice0.lean ====
section
/-! SUPPORT. Tests: the well-formedness smoke test, every constructor's decoding from a written-out word, at most two single
steps per instruction with the expected values of 95_test_vectors.md, and for every statement with hypotheses a theorem that
concrete states and operands meet them. -/

open Sys2Proof Sys2Proof.Machine

namespace Sys2Proof.Tests

/-! ### Well-formedness: an ill-formed term for each check -/

theorem test_wellFormed_rd_refuses_offset_1 : (Instr.rd 0x11#6).wellFormed = false := by decide
theorem test_wellFormed_wr_refuses_offset_2 : (Instr.wr 0x12#6 5#32).wellFormed = false := by decide
theorem test_wellFormed_rd : (Instr.rd 0x3C#6).wellFormed = true := by decide
theorem test_wellFormed_wr : (Instr.wr 0x10#6 0xFFFFFF85#32).wellFormed = true := by decide

/-! ### Decoding: words written out from 30_encoding.md R69 and R71 (bits [3:0] METHOD, bit [4] DIR) -/

theorem test_decode_xorEnc : decodeTableWord 32 0b00001 = some .xorEnc := by decide
theorem test_decode_xorDec : decodeTableWord 32 0b10001 = some .xorDec := by decide
theorem test_decode_swapEnc : decodeTableWord 32 0b00010 = some .swapEnc := by decide
theorem test_decode_swapDec : decodeTableWord 32 0b10010 = some .swapDec := by decide
theorem test_decode_mathEnc : decodeTableWord 32 0b00011 = some .mathEnc := by decide
theorem test_decode_mathDec : decodeTableWord 32 0b10011 = some .mathDec := by decide
theorem test_decode_shufEnc : decodeTableWord 32 0b00100 = some .shufEnc := by decide
theorem test_decode_shufDec : decodeTableWord 32 0b10100 = some .shufDec := by decide
/-- RW = 0, OFF = 11 (ERRADDR), address bits [1:0] = 0. -/
theorem test_decode_rd : decodeTableWord 7 0b0101100 = some (.rd 0x2C#6) := by decide
/-- RW = 1, OFF = 4 (KEY), DATA = 0x0000007B at bits 39..8. -/
theorem test_decode_wr : decodeTableWord 40 0x7B50 = some (.wr 0x10#6 0x7B#32) := by decide
/-- 95_test_vectors.md V21, case 1. -/
theorem test_decode_invalid_words :
    [0x00000000, 0x00000005, 0x00000021, 0x00000015, 0x80000001, 0x0000000F].map (decodeTableWord 32) =
      List.replicate 6 none := by decide
/-- R55: bytes, a partial strobe, a misaligned offset. -/
theorem test_decode_refused_accesses :
    decode (.bus { write := true, addr := 0x10#6, size := .byte, strobe := 15#4, data := 5#32 }) = .error .subWord ∧
    decode (.bus { write := true, addr := 0x10#6, size := .word, strobe := 7#4, data := 5#32 }) = .error .partialStrobe ∧
    decode (.bus { write := false, addr := 0x11#6, size := .word, strobe := 15#4, data := 0#32 }) = .error .misaligned := by
  decide

/-! ### Small states -/

/-- A command running on `h` by `w` pixels from 0x1000 to 0x2000, with the source bytes given. -/
def running (op : Op) (key : Word) (h w : BitVec 16) (source : List Byte) : State :=
  { State.reset with
    op := op, key := key, srcBase := 0x1000#32, dstBase := 0x2000#32, height := h, width := w
    status := { State.reset.status with busy := true }, mem := Memory.writeBytes [] 0x1000 source }

/-- The same state before its CMD write. -/
def configured (key : Word) (h w : BitVec 16) (source : List Byte) : State :=
  { running ⟨.xor, .enc⟩ key h w source with status := State.reset.status }

/-- The next state, or the reset state where there is none. -/
def after (o : Host.Outcome State Fault Refusal) : State :=
  match o with
  | .next t => t
  | _ => State.reset

/-- What a test looks at after a step: whether the step answers a next state, its destination bytes and its STATUS. -/
def seen (o : Host.Outcome State Fault Refusal) : Option (List Byte × Word) :=
  match o with
  | .next t => some (t.mem.readBytes t.dst t.len, t.status.word)
  | _ => none

/-- What a test of a register access looks at: the port's answer and STATUS. -/
def answered (o : Host.Outcome State Fault Refusal) : Option (Response × Word) :=
  match o with
  | .next t => some (t.resp, t.status.word)
  | _ => none

/-! ### One step of each command (values of 95_test_vectors.md) -/

/-- V5, V6. -/
theorem test_xorEnc_V5 : seen (step (running ⟨.xor, .enc⟩ 7#32 1#16 1#16 [10, 20, 30])) = some ([165, 208, 7], 2#32) := by
  decide +kernel
theorem test_xorDec_V6 : seen (step (running ⟨.xor, .dec⟩ 7#32 1#16 1#16 [165, 208, 7])) = some ([10, 20, 30], 2#32) := by
  decide +kernel
/-- V11. -/
theorem test_swapEnc_V11 :
    seen (step (running ⟨.swap, .enc⟩ 7#32 1#16 3#16 [1, 2, 3, 4, 5, 6, 7, 8, 9])) = some ([7, 8, 9, 4, 5, 6, 1, 2, 3], 2#32) := by
  decide +kernel
/-- V9: a permutation that is not its own inverse. -/
theorem test_swapDec_V9 :
    seen (step (running ⟨.swap, .dec⟩ 0#32 2#16 5#16
      [20, 21, 22, 80, 81, 82, 40, 41, 42, 90, 91, 92, 10, 11, 12, 60, 61, 62, 70, 71, 72, 30, 31, 32, 0, 1, 2, 50, 51, 52])) =
    some ([0, 1, 2, 10, 11, 12, 20, 21, 22, 30, 31, 32, 40, 41, 42, 50, 51, 52, 60, 61, 62, 70, 71, 72, 80, 81, 82, 90, 91, 92],
      2#32) := by
  decide +kernel
/-- V14 and a negative key of V13. -/
theorem test_mathEnc_V14 :
    seen (step (running ⟨.math, .enc⟩ 123#32 2#16 2#16 [200, 56, 255, 1, 0, 10, 128, 127, 129, 250, 44, 123])) =
      some ([56, 200, 1, 7, 0, 254, 128, 129, 135, 14, 220, 141], 2#32) := by
  decide +kernel
theorem test_mathDec_V14 :
    seen (step (running ⟨.math, .dec⟩ 123#32 2#16 2#16 [56, 200, 1, 7, 0, 254, 128, 129, 135, 14, 220, 141])) =
      some ([200, 56, 255, 1, 0, 10, 128, 127, 129, 250, 44, 123], 2#32) := by
  decide +kernel
theorem test_math_V13_negative_key : mathEnc (BitVec.ofInt 32 (-123)) 1 = 3 ∧ mathDec (BitVec.ofInt 32 (-123)) 1 = 255 := by decide
/-- V15, V16. -/
theorem test_shufEnc_V15 : seen (step (running ⟨.shuffle, .enc⟩ 7#32 1#16 1#16 [10, 20, 30])) = some ([47, 53, 0], 2#32) := by
  decide +kernel
theorem test_shufDec_V16 : seen (step (running ⟨.shuffle, .dec⟩ 7#32 1#16 1#16 [47, 53, 0])) = some ([27, 20, 30], 2#32) := by
  decide +kernel
/-- V8b, W3: an empty buffer completes with DONE. -/
theorem test_empty_buffer_V8b : seen (step (running ⟨.xor, .enc⟩ 7#32 0#16 5#16 [])) = some ([], 2#32) := by decide +kernel
/-- P5: a bus error on 0x1001. -/
theorem test_bus_error_P5 :
    let t := after (step { running ⟨.xor, .enc⟩ 7#32 1#16 1#16 [10, 20, 30] with
      platform := { Platform.reference with refused := [(0x1001#32, .read), (0x2003#32, .write)] } })
    t.status.word = 0x64#32 ∧ t.errAddr = 0x1001#32 ∧ t.mem.readBytes 0x1000 3 = [10, 20, 30] := by
  decide +kernel

/-! ### One step of RD and WR (V20 to V23) -/

/-- V22: while BUSY a write to KEY sets IGN only, and CMD is ignored. -/
theorem test_wr_busy_V22 :
    answered (exec (.wr 0x10#6 5#32) (running ⟨.xor, .enc⟩ 7#32 1#16 1#16 [])) = some (.done, 9#32) ∧
    answered (exec (.wr 0x08#6 1#32) (running ⟨.xor, .enc⟩ 7#32 1#16 1#16 [])) = some (.done, 9#32) := by
  decide +kernel
/-- V22: the reserved bits of HEIGHT, CHANNELS and IRQ_EN; ID is read-only; CMD and 0x30 read 0. -/
theorem test_rd_V22 :
    answered (exec (.rd 0x1C#6) (after (exec (.wr 0x1C#6 0x12345#32) State.reset))) = some (.data 0x2345#32, 0#32) ∧
    answered (exec (.rd 0x24#6) (after (exec (.wr 0x24#6 0x103#32) State.reset))) = some (.data 3#32, 0#32) ∧
    answered (exec (.rd 0x28#6) (after (exec (.wr 0x28#6 0xFFFFFFFF#32) State.reset))) = some (.data 3#32, 0#32) ∧
    answered (exec (.rd 0x00#6) (after (exec (.wr 0x00#6 0#32) State.reset))) = some (.data 0x50584531#32, 0#32) ∧
    answered (exec (.rd 0x08#6) State.reset) = some (.data 0#32, 0#32) ∧
    answered (exec (.rd 0x30#6) State.reset) = some (.data 0#32, 0#32) := by
  decide +kernel
/-- V21: what STATUS is after a CMD write of `w`. -/
def statusAfterCmd (s : State) (w : Word) : Option Word := (answered (exec (.wr 0x08#6 w) s)).map Prod.snd
/-- V21, cases 2, 4 to 10 and 12. -/
theorem test_acceptance_V21 :
    let s := configured 0#32 1#16 1#16 []
    statusAfterCmd { s with channels := 4#8 } 5#32 = some 0x14#32 ∧
    statusAfterCmd { s with srcBase := 0xFFFFFFFE#32, dstBase := 0#32 } 1#32 = some 0x34#32 ∧
    statusAfterCmd { s with srcBase := 0xFFFFFFFD#32, dstBase := 0#32 } 1#32 = some 1#32 ∧
    statusAfterCmd { s with dstBase := 0x1002#32 } 1#32 = some 0x44#32 ∧
    statusAfterCmd { s with dstBase := 0x1003#32 } 1#32 = some 1#32 ∧
    statusAfterCmd { s with dstBase := 0x1000#32, height := 0#16 } 1#32 = some 1#32 ∧
    statusAfterCmd { s with srcBase := 0#32, dstBase := 0x100000#32, height := 257#16, width := 257#16 } 2#32 = some 0x54#32 ∧
    statusAfterCmd { s with srcBase := 0#32, dstBase := 0x100000#32, height := 257#16, width := 257#16 } 1#32 = some 1#32 ∧
    statusAfterCmd { s with srcBase := 0#32, dstBase := 0x100000#32, height := 256#16, width := 256#16 } 2#32 = some 1#32 ∧
    statusAfterCmd { s with srcBase := 0xFFFFFFFE#32, channels := 0#8 } 3#32 = some 0x24#32 := by
  decide +kernel
/-- V22: acknowledging an error; V23: irq follows the pending bit and its enable. -/
theorem test_wr_status_V22 :
    let e := after (exec (.wr 0x08#6 5#32) { State.reset with irqEn := 1#2 })
    e.status.word = 0x14#32 ∧ e.irq = false ∧ (after (exec (.wr 0x28#6 3#32) e)).irq = true ∧
    (after (exec (.wr 0x0C#6 2#32) e)).status.word = 0x14#32 ∧ (after (exec (.wr 0x0C#6 4#32) e)).status.word = 0#32 := by
  decide +kernel

/-! ### Placing an instruction; a whole host program -/

theorem test_withFetchWord_runs_the_command :
    seen (step (State.reset.withFetchWord 32 0x13)) = some ([], 2#32) ∧
    answered (step (State.reset.withFetchWord 7 0b0000000)) = some (.data 0x50584531#32, 0#32) ∧
    (after (step (State.reset.withFetchWord 40 0xFFFFFF8550))).key = 0xFFFFFF85#32 := by
  decide +kernel

/-- P3, steps 13 to 16: `SETUP`, `RUN MATH.ENC` (R75), with one read of STATUS while the command runs. -/
theorem test_host_program_P3 :
    let s := { State.reset with
      program := HostProgram.setup 300#32 0x1000#32 0x2000#32 1#32 1#32 ++ HostProgram.run ⟨.math, .enc⟩
      schedule := List.replicate 7 .host ++ [.engine, .host], mem := Memory.writeBytes [] 0x1000 [1, 2, 3] }
    let o := core.run s.schedule.length s
    seen o = some ([1, 2, 3], 2#32) ∧ answered o = some (.data 2#32, 2#32) ∧ (after o).program = [] ∧
      answered (core.run 7 s) = some (.data 1#32, 1#32) ∧ (after (core.run 7 s)).program = [.waitIdle] := by
  decide +kernel

/-- R75: while the command waits on a stalled bus `WAITIDLE` repeats; once it is idle one read ends it. -/
theorem test_waitIdle_repeats_until_idle :
    let s := { running ⟨.xor, .enc⟩ 7#32 1#16 1#16 [] with
      platform := { Platform.reference with stalled := [(0x1000#32, .read)] }
      program := [.waitIdle, .rd .errAddr], schedule := [.host, .engine, .host] }
    (after (core.run 3 s)).program = [.waitIdle, .rd .errAddr] ∧ (after (core.run 3 s)).resp = .data 1#32 ∧
      (after (step { s with status := State.reset.status })).program = [.rd .errAddr] := by
  decide +kernel

/-! ### The PRNG (V1, V2, V4b) -/

theorem test_next32_V1 : wordAt (reseed 5489#32) 0 = 3499211612#32 ∧ wordAt (reseed 5489#32) 4 = 545404204#32 := by decide +kernel
theorem test_shuffleIdentity_V2 : (shuffleIdentity 10 (reseed 0#32)).1 = [2, 8, 4, 9, 1, 6, 7, 3, 0, 5] := by decide +kernel
theorem test_drawNoise_V15 : (drawNoise 3 (shuffleIdentity 3 (reseed 7#32)).2).1 = [17, 33, -27] := by decide +kernel
theorem test_maskOf_V4b : [0, 1, 2, 3, 4, 9, 99, 255, 0xFFFFFFFF].map maskOf = [0, 1, 3, 3, 7, 15, 127, 255, 0xFFFFFFFF] := by decide

/-! ### Reset and the canonical memory -/

theorem test_reset_memory_wf : State.reset.mem.wf = true := by decide
theorem test_writing_the_unlisted_value_removes_the_entry :
    Memory.write (Memory.write [] 5 7) 5 0 = [] ∧ Memory.write (Memory.write [] 5 7) 3 1 = [(3, 1), (5, 7)] := by decide

/-! ### Witnesses: states and operands that meet all hypotheses of a statement together -/

/-- The invariant of a state out of reset whose generator is the one at reset. -/
theorem inv_of {s : State} (hm : s.mem.wf = true) (hd : s.status.done = false) (he : s.status.err = false)
    (hc : s.status.errCode = .none) (ha : s.checkOperands s.op = .none) (hr : s.rst = false) (hg : s.eng = State.reset.eng)
    (hp : 1 ≤ s.platform.permDepth.toNat) : s.Inv :=
  ⟨hm, by simp [hd], fun _ => ⟨hd, he⟩, by simp [he, hc], fun _ => ha, by simp [hr],
    by rw [hg]; exact ⟨List.length_replicate, by decide⟩, by rw [hg]; rfl, hp⟩

/-- One running command of each kind, on one pixel. -/
def run1 (op : Op) : State := running op 7#32 1#16 1#16 [10, 20, 30]

theorem test_witness_run1_inv (op : Op) : (run1 op).Inv := by
  obtain ⟨m, d⟩ := op
  cases m <;> cases d <;> exact inv_of (by decide) rfl rfl rfl (by decide) rfl rfl (by decide)

theorem test_witness_run1_launched (op : Op) : (run1 op).Launched op := ⟨rfl, rfl, rfl, rfl, rfl, rfl⟩

/-- A command that reads back what another has left, with the same KEY, HEIGHT and WIDTH, into a third buffer. -/
def readBack (op : Op) (t : State) : State :=
  { State.reset with
    op := op, key := t.key, height := t.height, width := t.width, srcBase := t.dstBase, dstBase := 0x3000#32, mem := t.mem
    status := { State.reset.status with busy := true } }

/-- XorRoundTrip, SwapRoundTrip, MathRoundTrip, ShuffleExactRoundTripCondition, ShuffleDeviationBound. -/
theorem test_witness_roundTrip (m : Method) :
    ∃ t, exec (Op.instr ⟨m, .enc⟩) (run1 ⟨m, .enc⟩) = .next t ∧ (readBack ⟨m, .dec⟩ t).Inv ∧ t.ReadsBack (readBack ⟨m, .dec⟩ t) ∧
      (readBack ⟨m, .dec⟩ t).Launched ⟨m, .dec⟩ := by
  refine ⟨(run1 ⟨m, .enc⟩).complete ((run1 ⟨m, .enc⟩).result ⟨m, .enc⟩), ?_, ?_, ⟨rfl, rfl, rfl, fun _ _ => rfl⟩, ⟨rfl, rfl, rfl, rfl, rfl, rfl⟩⟩
  · rw [exec_instr, State.command_running (op := ⟨m, .enc⟩) _ rfl rfl rfl]
    rfl
  · cases m <;> exact inv_of (by decide +kernel) rfl rfl rfl (by decide +kernel) rfl rfl (by decide)

/-- XorRoundTrip, its second clause: XOR.ENC again. -/
theorem test_witness_xorEnc_twice :
    ∃ t, exec .xorEnc (run1 ⟨.xor, .enc⟩) = .next t ∧ (readBack ⟨.xor, .enc⟩ t).Inv ∧ t.ReadsBack (readBack ⟨.xor, .enc⟩ t) ∧
      (readBack ⟨.xor, .enc⟩ t).Launched ⟨.xor, .enc⟩ := by
  refine ⟨(run1 ⟨.xor, .enc⟩).complete ((run1 ⟨.xor, .enc⟩).result ⟨.xor, .enc⟩), rfl, ?_, ⟨rfl, rfl, rfl, fun _ _ => rfl⟩,
    ⟨rfl, rfl, rfl, rfl, rfl, rfl⟩⟩
  exact inv_of (by decide +kernel) rfl rfl rfl (by decide +kernel) rfl rfl (by decide)

/-- XorCommandsComplete, MathEncCompletes, MathDecCompletes, SwapEncCompletes, SwapDecCompletes, ShufEncCompletes, ShufDecCompletes,
SwapMovesPixelsWhole, ResultDependsOnlyOnItsFiveInputs (with `s' = s`), EngineNeverWritesTheSource: a launched command. -/
theorem test_witness_launched (op : Op) :
    (run1 op).Inv ∧ (run1 op).Launched op ∧ (run1 op).len = 3 ∧ (run1 op).inSource 0x1002 = true :=
  ⟨test_witness_run1_inv op, test_witness_run1_launched op, rfl, rfl⟩

/-- ResultDependsOnlyOnItsFiveInputs, with two states that differ elsewhere. -/
theorem test_witness_same_inputs (op : Op) :
    let s := run1 op
    let s' := { s with dstBase := 0x5000#32, irqEn := 3#2 }
    s.Inv ∧ s'.Inv ∧ s.Launched op ∧ s'.Launched op ∧ s'.key = s.key ∧ s'.height = s.height ∧ s'.width = s.width ∧
      (∀ a : Nat, a < s.len → s'.sourceAt a = s.sourceAt a) ∧ s' ≠ s := by
  refine ⟨test_witness_run1_inv op, ?_, test_witness_run1_launched op, ⟨rfl, rfl, rfl, rfl, rfl, rfl⟩, rfl, rfl, rfl, fun _ _ => rfl, ?_⟩
  · obtain ⟨m, d⟩ := op
    cases m <;> cases d <;> exact inv_of (by decide) rfl rfl rfl (by decide) rfl rfl (by decide)
  · exact fun h => absurd (show 3#2 = 0#2 from congrArg State.irqEn h) (by decide)

/-- DecodeOfEncode, DecodeOfNumberedForm. -/
theorem test_witness_wellFormed : (Instr.wr 0x3C#6 0x80000001#32).wellFormed = true ∧ (Instr.rd 0x00#6).wellFormed = true := by decide

/-- A state whose next move is a register access. -/
def nextAccess (a : BusAccess) : State := { State.reset with schedule := [.bus 0#26 a] }

/-- StepRunsTheDecodedTransaction. -/
theorem test_witness_transaction :
    (nextAccess (writeAccess 0x10#6 7#32)).schedule = [.bus (nextAccess (writeAccess 0x10#6 7#32)).platform.regPage (writeAccess 0x10#6 7#32)] ∧
      (nextAccess (writeAccess 0x10#6 7#32)).rst = false ∧ decode (.bus (writeAccess 0x10#6 7#32)) = .ok (.wr 0x10#6 7#32) := by
  decide +kernel

/-- StepRunsTheDecodedTransaction, the host's statements: a write, a read, and `WAITIDLE` while BUSY and while IDLE. -/
theorem test_witness_host_statement :
    let s := { State.reset with schedule := [.host] }
    let b := { run1 ⟨.xor, .enc⟩ with schedule := [.host], program := [.waitIdle] }
    s.rst = false ∧ b.rst = false ∧ { s with program := [.wr .irqEn 3#32] }.program = [.wr .irqEn 3#32] ∧
      (after (step { s with program := [.wr .irqEn 3#32] })).irqEn = 3#2 ∧
      (after (step { s with program := [.rd .id] })).resp = .data 0x50584531#32 ∧
      (after (step { s with program := [.waitIdle] })).program = [] ∧ (after (step b)).program = [.waitIdle] := by
  decide +kernel

/-- StepRunsTheDecodedTransaction, the host's buffer bytes (R74), out of reset and in reset, and a program that is over. -/
theorem test_witness_host_buffer :
    let s := { run1 ⟨.xor, .enc⟩ with schedule := [.host, .engine] }
    (after (step { s with program := [.mw 0x1002#32 9#8] })).mem.read 0x1002 = 9#8 ∧
      (after (step { s with program := [.mw 0x1002#32 9#8], rst := true })).program = [] ∧
      (after (step { s with program := [.mr 0x1002#32, .waitIdle] })).hostByte = 30#8 ∧
      (after (step { s with program := [.mr 0x1002#32, .waitIdle] })).program = [.waitIdle] ∧
      (after (step { s with program := [] })).schedule = [.engine] := by
  decide +kernel

/-- StepRunsTheLatchedCommand: the engine's turn scheduled, and nothing scheduled. -/
theorem test_witness_latched_command :
    (run1 ⟨.swap, .dec⟩).status.busy = true ∧ (run1 ⟨.swap, .dec⟩).rst = false ∧
      decode (.cmdw (run1 ⟨.swap, .dec⟩).op.word) = .ok .swapDec ∧ (run1 ⟨.swap, .dec⟩).schedule = [] ∧
      { run1 ⟨.swap, .dec⟩ with schedule := [.engine] }.schedule = [.engine] := by
  decide +kernel

/-- IdleEngineIsQuiescent. -/
theorem test_witness_idle :
    State.reset.status.busy = false ∧ State.reset.schedule = [] ∧ { State.reset with schedule := [.engine] }.schedule = [.engine] := by
  decide

/-- RefusedRegisterAccessChangesNothing: each of the three grounds alone. -/
theorem test_witness_refused_access :
    let a : BusAccess := { write := true, addr := 0x10#6, size := .half, strobe := 15#4, data := 5#32 }
    let b : BusAccess := { write := true, addr := 0x10#6, size := .word, strobe := 14#4, data := 5#32 }
    let c : BusAccess := { write := false, addr := 0x3F#6, size := .word, strobe := 15#4, data := 0#32 }
    a.size ≠ .word ∧ b.strobe ≠ 15#4 ∧ c.addr.extractLsb' 0 2 ≠ 0#2 ∧ (nextAccess a).rst = false ∧
      [a, b, c].map (fun x => answered (step (nextAccess x))) = List.replicate 3 (some (.busError, 0#32)) := by
  decide +kernel

/-- StepKeepsInv: at reset, and the step there answers a next state. -/
theorem test_witness_inv_reset : State.reset.Inv ∧ step State.reset = .next State.reset :=
  ⟨inv_of rfl rfl rfl rfl (by decide) rfl rfl (by decide), rfl⟩

/-- RunIsEnteredOnlyByAcceptance: a scheduled transaction, and a host's statement. -/
theorem test_witness_run_entered :
    let s := nextAccess (writeAccess 0x08#6 0x14#32)
    let h := { State.reset with schedule := [.host], program := HostProgram.cmd ⟨.shuffle, .dec⟩ }
    (s.status.busy = false ∧ ∃ t, step s = .next t ∧ t.status.busy = true) ∧
      h.status.busy = false ∧ ∃ t, step h = .next t ∧ t.status.busy = true :=
  ⟨⟨rfl, _, rfl, rfl⟩, rfl, _, rfl, rfl⟩

/-- RunIsLeftOnlyByItsThreeEnds: completion, a bus error, reset. -/
theorem test_witness_run_left :
    let s := run1 ⟨.math, .enc⟩
    let e := { s with platform := { s.platform with refused := [(0x1002#32, .read)] } }
    let r := { s with schedule := [.rst true] }
    s.Inv ∧ e.Inv ∧ r.Inv ∧ (∃ t, step s = .next t ∧ t.status.busy = false) ∧ (∃ t, step e = .next t ∧ t.status.busy = false) ∧
      (∃ t, step r = .next t ∧ t.status.busy = false) := by
  refine ⟨test_witness_run1_inv _, ?_, ?_, ⟨_, rfl, rfl⟩, ⟨_, rfl, rfl⟩, ⟨_, rfl, rfl⟩⟩ <;>
    exact inv_of (by decide +kernel) rfl rfl rfl (by decide) rfl rfl (by decide)

/-- ConfigurationLock: every locked offset while BUSY, and a step that leaves the command running. -/
theorem test_witness_lock :
    let s := { run1 ⟨.xor, .enc⟩ with schedule := [.bus 0#26 (writeAccess 0x24#6 4#32)] }
    s.Inv ∧ s.status.busy = true ∧ s.rst = false ∧ (∃ t, step s = .next t ∧ t.status.busy = true ∧ t.status.ign = true) ∧
      [0x08#6, 0x10#6, 0x14#6, 0x18#6, 0x1C#6, 0x20#6, 0x24#6].map (fun off => answered (exec (.wr off 9#32) s)) =
        List.replicate 7 (some (.done, 9#32)) :=
  ⟨inv_of (by decide +kernel) rfl rfl rfl (by decide) rfl rfl (by decide), rfl, rfl, ⟨_, rfl, rfl, rfl⟩, by decide +kernel⟩

/-- OnlyBusErrorWritesErrAddr: a bus error, and reset after one. -/
theorem test_witness_errAddr :
    let s := run1 ⟨.xor, .enc⟩
    let e := { s with platform := { s.platform with refused := [(0x2000#32, .write)] } }
    let r := { State.reset with errAddr := 5#32, schedule := [.rst false], rst := true }
    (∃ t, step e = .next t ∧ t.errAddr = 0x2000#32 ∧ t.errAddr ≠ e.errAddr) ∧ (∃ t, step r = .next t ∧ t.errAddr ≠ r.errAddr) :=
  ⟨⟨_, rfl, rfl, by decide⟩, ⟨_, rfl, by decide⟩⟩

/-- The statements whose only premises are 'out of reset', 'IDLE' or 'BUSY', and an offset: ReadReturnsTheRegister, ReservedOffsets,
ReadOnlyRegistersIgnoreWrites, IdleConfigurationWrites, StatusWriteOneToClear, InterruptEnableWrite, InterruptLine. -/
theorem test_witness_registers :
    State.reset.rst = false ∧ State.reset.status.busy = false ∧ 0x3C#6 ∈ [0x30#6, 0x34#6, 0x38#6, 0x3C#6] ∧
      0x2C#6 ∈ [0x00#6, 0x04#6, 0x2C#6] := by
  decide

/-- MisalignedOperation, InstructionsAreRefusedInReset. -/
theorem test_witness_misaligned_and_reset :
    (0x3F#6).extractLsb' 0 2 ≠ 0#2 ∧ State.reset.rst = false ∧ { State.reset with rst := true }.rst = true := by
  decide

/-- AcceptanceChecksInOrder, AcceptedCommandStarts, RejectionIsPrecise (the values of each check: `test_acceptance_V21`). -/
theorem test_witness_acceptance :
    let s := configured 7#32 1#16 1#16 [10, 20, 30]
    s.status.busy = false ∧ s.rst = false ∧ s.checkOperands ⟨.swap, .enc⟩ = .none ∧ s.check 5#32 = .error .invalidMethod ∧
      { s with dstBase := 0x1002#32 }.check 3#32 = .error .overlap := by
  decide +kernel

/-- CommandArrivesAsItsWord: while IDLE, and while another command runs. -/
theorem test_witness_command_arrives :
    ¬(State.reset.status.busy = true ∧ State.reset.op = ⟨.math, .dec⟩) ∧
      ¬((run1 ⟨.xor, .enc⟩).status.busy = true ∧ (run1 ⟨.xor, .enc⟩).op = ⟨.math, .dec⟩) := by
  decide +kernel

/-- EmptyBufferCompletes: H = 0, and W = 0. -/
theorem test_witness_empty :
    let s := running ⟨.swap, .enc⟩ 7#32 0#16 65535#16 []
    s.status.busy = true ∧ s.op = ⟨.swap, .enc⟩ ∧ s.rst = false ∧ s.height = 0#16 ∧ { s with height := 1#16, width := 0#16 }.width = 0#16 := by
  decide +kernel

/-- BusErrorEndsTheCommand: a refused read of the last source byte, and a refused write of the first destination byte; the accesses one
byte further are outside the access set; and a refused access beside a stalled one (log 11). -/
theorem test_witness_erring :
    let s := run1 ⟨.xor, .enc⟩
    s.status.busy = true ∧ s.rst = false ∧
      { s with platform := { s.platform with refused := [(0x1002#32, .read)] } }.erring ≠ [] ∧
      { s with platform := { s.platform with refused := [(0x2000#32, .write)] } }.erring ≠ [] ∧
      (let b := { s with platform := { s.platform with refused := [(0x1002#32, .read)], stalled := [(0x1000#32, .read)] } }
      b.erring ≠ [] ∧ b.stalls = true ∧ (after (exec .xorEnc b)).status.word = 0x64#32) ∧
      { s with platform := { s.platform with refused := [(0x1003#32, .read), (0x2003#32, .write), (0x2000#32, .read), (0x1000#32, .write)] } }.erring
        = [] := by
  decide +kernel

/-- StalledCommandWaits, DisturbedCommandCompletes. -/
theorem test_witness_stalled_and_disturbed :
    let s := run1 ⟨.xor, .enc⟩
    let w := { s with platform := { s.platform with stalled := [(0x1000#32, .read)] } }
    let d := { s with disturbed := true }
    w.status.busy = true ∧ w.op = ⟨.xor, .enc⟩ ∧ w.rst = false ∧ w.erring = [] ∧ w.stalls = true ∧
      d.status.busy = true ∧ d.rst = false ∧ d.disturbed = true ∧ d.erring = [] ∧ d.stalls = false := by
  decide +kernel

/-- HostMemoryWrite and HostMemoryRead: on the last source byte, on a destination byte of a running command, and elsewhere. -/
theorem test_witness_host_memory :
    let s := run1 ⟨.xor, .enc⟩
    { s with schedule := [.memWrite 0x1002#32 9#8] }.Inv ∧
      (after (step { s with schedule := [.memWrite 0x1002#32 9#8] })).disturbed = true ∧
      (after (step { s with schedule := [.memWrite 0x1003#32 9#8] })).disturbed = false ∧
      (after (step { s with schedule := [.memRead 0x1002#32] })).hostByte = 30#8 ∧
      (after (step { s with schedule := [.memRead 0x2000#32] })).disturbed = false :=
  ⟨inv_of (by decide +kernel) rfl rfl rfl (by decide) rfl rfl (by decide), by decide +kernel, by decide +kernel, by decide +kernel,
    by decide +kernel⟩

/-- ResetInputAsserted and ResetInputDeasserted: while BUSY, while asserted, and while it was low. -/
theorem test_witness_reset_input :
    { run1 ⟨.xor, .enc⟩ with schedule := [.rst true] }.schedule = [.rst true] ∧
      { State.reset with schedule := [.rst false], rst := true }.rst = true ∧ { State.reset with schedule := [.rst false] }.rst = false := by
  decide +kernel

/-- ReseedFillsTheBlock at its last index; MaskIsSmallest at a bound; ShuffleIdentityIsAPermutation at the largest n with no draw, and at n = 2. -/
theorem test_witness_prng :
    1 ≤ 623 ∧ (reseed 5#32).mt.length = 624 ∧ (9#32).toNat ≤ 2 ^ 4 - 1 ∧ (1 : Nat) < 2 ^ 32 ∧
      (shuffleIdentity 1 (reseed 5#32)).2 = reseed 5#32 ∧ (shuffleIdentity 2 (reseed 7#32)).1.length = 2 :=
  ⟨by decide, reseed_length _, by decide, by decide, rfl, by decide +kernel⟩

/-- TwistIsTheInPlaceLoop: a generator whose next call regenerates the block, and one whose next call does not. -/
theorem test_witness_next32 :
    (reseed 7#32).mt.length = 624 ∧ (reseed 7#32).mti = 624 ∧ (next32 (reseed 7#32)).2.mt.length = 624 ∧
      (next32 (reseed 7#32)).2.mti = 1 :=
  ⟨reseed_length _, rfl, by decide +kernel, by decide +kernel⟩

/-- IntervalIsInRange: word 0 accepted (k = 0), and word 0 rejected with word 1 accepted (k = 1). -/
theorem test_witness_interval :
    2#32 ≠ 0#32 ∧ 0 < drawLimit ∧ 1 < drawLimit ∧ wordAt (reseed 0#32) 0 &&& maskOf 2#32 ≤ 2#32 ∧
      2#32 < wordAt (reseed 7#32) 0 &&& maskOf 2#32 ∧ wordAt (reseed 7#32) 1 &&& maskOf 2#32 ≤ 2#32 := by
  decide +kernel

/-- BoundedDraws: the noise range with a rejected word before the accepted one (95_test_vectors.md V15: after three words of seed 7, 118 is
rejected and 67 gives 17), the general range at its least size, and a noise value that is not the first. -/
theorem test_witness_bounded :
    let g := (fun h : Prng => (next32 h).2)^[3] (reseed 7#32)
    ((-50 : Int) < 50 ∧ (50 : Int) - -50 ≤ 2 ^ 32 - 1 ∧ ((99#32).toNat : Int) = 50 - -50 - 1 ∧ 99#32 ≠ 0#32 ∧ maskOf 99#32 = 0x7F#32 ∧
      wordAt g 0 &&& 0x7F#32 = 118#32 ∧ wordAt g 1 &&& 0x7F#32 = 67#32 ∧ (bounded (-50) 50 g).1 = 17) ∧
    ((4 : Int) < 5 ∧ (5 : Int) - 4 = 1) ∧ (2 : Nat) < 3 := by
  decide +kernel

/-- ShuffleDeviationBound (V16, V19): a sample that the noise takes below 0, and two that it takes above 255. -/
theorem test_witness_deviation :
    seen (step (running ⟨.shuffle, .dec⟩ 7#32 1#16 1#16 [47, 53, 0])) = some ([27, 20, 30], 2#32) ∧
      seen (step (running ⟨.shuffle, .dec⟩ 0xFFFFFFFF#32 2#16 1#16 [21, 2, 14, 255, 255, 237])) = some ([0, 0, 0, 216, 219, 255], 2#32) := by
  decide +kernel

/-- ShuffleExactRoundTripCondition, its last clause, at the ends of both ranges. -/
theorem test_witness_shuffle_bounds :
    [0, 49, 207, 255].all (fun x : Int => decide ((0 ≤ x ∧ x < 50) ∨ (206 < x ∧ x ≤ 255))) = true := by
  decide

/-- StatusWordLayout (V20): each error code, and no error. -/
theorem test_witness_status_word :
    [ErrCode.invalidMethod, .shapeMismatch, .addrRange, .overlap, .capacity, .busError].map
        (fun c => ({ busy := false, done := false, err := true, ign := false, errCode := c } : Status).word) =
      [0x14, 0x24, 0x34, 0x44, 0x54, 0x64] ∧ State.reset.status.word = 0#32 := by
  decide

end Sys2Proof.Tests
end

/-! ### What each operation keeps of the invariant -/

namespace Sys2Proof.Machine

/-- The invariant sees neither the schedule nor the host's program. -/
theorem State.Inv.passed {s u : State} (h : s.Inv) (hu : Passed s u) : u.Inv := by
  obtain ⟨es, p, rfl⟩ := hu
  exact { h with }

theorem State.Inv.respond {s : State} (h : s.Inv) (r : Response) : (s.respond r).Inv := { h with }

theorem State.Inv.engineTurn {s u : State} (h : s.Inv) (hu : EngineTurn s u) : u.Inv := by
  obtain ⟨es, rfl⟩ := hu.eq_withSchedule
  exact { h with }

/-! #### Register writes (R77) -/

/-- While IDLE the configuration registers are free: no operand has to pass a check (R41). -/
theorem State.Inv.of_idle_config {s t : State} (h : s.Inv) (idle : s.status.busy = false) (platform : t.platform = s.platform)
    (rst : t.rst = s.rst) (status : t.status = s.status) (eng : t.eng = s.eng) (mem : t.mem = s.mem) : t.Inv where
  memory := mem ▸ h.memory
  oneOutcome := status ▸ h.oneOutcome
  busyNoOutcome := status ▸ h.busyNoOutcome
  codeWithErr := status ▸ h.codeWithErr
  accepted hb := by rw [status, idle] at hb; cases hb
  resetIdle := by rw [rst, status]; exact h.resetIdle
  prngShape := eng ▸ h.prngShape
  cpShape := eng ▸ h.cpShape
  depth := platform ▸ h.depth

/-- IGN stands in no clause of the invariant. -/
theorem State.Inv.ignoreWrite {s : State} (h : s.Inv) : s.ignoreWrite.Inv := { h with }

theorem State.Inv.lockedWrite {s : State} {write : State → State} (h : s.Inv)
    (hw : s.status.busy = false → (write s).Inv) : (s.lockedWrite write).Inv := by
  cases hb : s.status.busy
  · rw [State.lockedWrite_idle _ hb]
    exact hw hb
  · rw [State.lockedWrite_busy _ hb]
    exact h.ignoreWrite

/-- A write to STATUS can only clear outcomes, and clears ERRCODE with ERR (R33 to R37). -/
theorem State.Inv.writeStatus {s : State} (h : s.Inv) (d : Word) : (s.writeStatus d).Inv := by
  rw [State.writeStatus_eq]
  refine { h with oneOutcome := ?_, busyNoOutcome := fun hb => ?_, codeWithErr := ?_ }
  · have := h.oneOutcome
    simp only [Bool.and_eq_true]
    tauto
  · obtain ⟨hd, he⟩ := h.busyNoOutcome hb
    simp [hd, he]
  · have := h.codeWithErr
    cases d.getLsbD 2
    · simpa using this
    · simp

/-- A command word that arrives while IDLE starts a command whose operands have just passed the checks, or leaves ERR with its
code (R78 to R81). -/
theorem State.Inv.accept {s : State} (h : s.Inv) (idle : s.status.busy = false) (hr : s.rst = false) (w : Word) :
    (s.accept w).Inv := by
  rcases s.accept_cases w with ⟨op, -, hc, ht⟩ | ⟨code, -, hcode, ht⟩ <;> rw [ht]
  · exact
      { h with
        oneOutcome := fun ho => nomatch ho.1
        busyNoOutcome := fun _ => ⟨rfl, rfl⟩
        codeWithErr := by simp [State.clearOutcome]
        accepted := fun _ => hc
        resetIdle := fun hrst => nomatch hr.symm.trans hrst }
  · exact
      { h with
        oneOutcome := fun ho => nomatch ho.1
        busyNoOutcome := fun hb => nomatch idle.symm.trans hb
        codeWithErr := by simp [hcode]
        accepted := fun hb => nomatch idle.symm.trans hb }

theorem State.Inv.writeCommand {s : State} (h : s.Inv) (hr : s.rst = false) (w : Word) : (s.writeCommand w).Inv := by
  unfold State.writeCommand
  split
  · exact h.ignoreWrite
  · rename_i hb
    exact h.accept (by simpa using hb) hr w

theorem State.Inv.writeReg {s : State} (h : s.Inv) (hr : s.rst = false) (d : Word) (r : Reg) : (s.writeReg d r).Inv := by
  cases r with
  | id | caps | errAddr | reserved => exact h
  | cmd => exact h.writeCommand hr d
  | status => exact h.writeStatus d
  | irqEn => exact { h with }
  | key | srcBase | dstBase | height | width | channels =>
    simp only [State.writeReg_key, State.writeReg_srcBase, State.writeReg_dstBase, State.writeReg_height, State.writeReg_width,
      State.writeReg_channels]
    exact h.lockedWrite fun hb => h.of_idle_config hb rfl rfl rfl rfl rfl

/-- A register access (R76, R77) keeps the invariant. -/
theorem State.Inv.exec_access {s t : State} {a : BusAccess} {i : Instr} (h : s.Inv) (hd : decodeBus a = .ok i)
    (ht : exec i s = .next t) : t.Inv := by
  obtain ⟨-, ⟨-, rfl⟩ | ⟨-, rfl⟩⟩ := decodeBus_ok hd
  · rw [exec_wr] at ht
    obtain ⟨hr, rfl | rfl⟩ := State.portAccess_next ht
    · exact (h.writeReg hr _ _).respond _
    · exact h.respond _
  · rw [exec_rd] at ht
    obtain ⟨-, rfl | rfl⟩ := State.portAccess_next ht <;> exact h.respond _

/-! #### The end of a running command (R83, R84, R152) -/

/-- LEN bytes stored at a running command's destination lie inside the address space (R79). -/
theorem State.Inv.wf_writeBytes_dst {s : State} (h : s.Inv) (hb : s.status.busy = true) {bs : List Byte}
    (hl : bs.length = s.len) : (s.mem.writeBytes s.dst bs).wf = true := by
  refine Memory.wf_writeBytes h.memory ?_
  rcases Nat.eq_zero_or_pos s.len with h0 | hpos
  · exact .inl (List.eq_nil_of_length_eq_zero (hl.trans h0))
  · obtain ⟨-, hdst, -⟩ := State.checkOperands_ranges (h.accepted hb) hpos
    exact .inr (hl ▸ hdst)

/-- Completion sets DONE where ERR and its code were 0 (R76, R83). -/
theorem State.Inv.complete {s : State} (h : s.Inv) (hb : s.status.busy = true) {r : List Byte} (hl : r.length = s.len) :
    (s.complete r).Inv := by
  obtain ⟨hmt, hmti, hcp⟩ := Internal.unspecified_shape s.epoch
  constructor <;> simp only [State.complete_mem, State.complete_status, State.complete_eng, State.complete_platform]
  case memory => exact h.wf_writeBytes_dst hb (by split <;> simp [hl])
  case oneOutcome => simp [h.busyNoOutcome hb]
  case codeWithErr => exact h.codeWithErr
  case prngShape => exact ⟨hmt, hmti⟩
  case cpShape => exact hcp
  case depth => exact h.depth
  all_goals simp

/-- A bus error sets ERR and its code where DONE was 0 (R76, R84). -/
theorem State.Inv.busErrorEnd {s : State} (h : s.Inv) (hb : s.status.busy = true) (x : Word × AccessDir)
    (more : List (Word × AccessDir)) : (s.busErrorEnd x more).Inv := by
  obtain ⟨hmt, hmti, hcp⟩ := Internal.unspecified_shape s.epoch
  constructor <;>
    simp only [State.busErrorEnd_mem, State.busErrorEnd_status, State.busErrorEnd_eng, (s.busErrorEnd_sameOutside x more).platform]
  case memory => exact h.wf_writeBytes_dst hb (by simp)
  case oneOutcome => simp [h.busyNoOutcome hb]
  case prngShape => exact ⟨hmt, hmti⟩
  case cpShape => exact hcp
  case depth => exact h.depth
  all_goals simp

theorem State.Inv.finish {s : State} (h : s.Inv) (hb : s.status.busy = true) {r : List Byte} (hl : r.length = s.len) :
    (s.finish r).Inv := by
  rcases s.finish_cases r with ⟨-, -, ht⟩ | ⟨-, -, ht⟩ | ⟨x, more, -, ht⟩ <;> rw [ht]
  · exact h
  · exact h.complete hb hl
  · exact h.busErrorEnd hb x more

/-- After a reset no command runs and no outcome stands; an abandoned command leaves the memory canonical (R49, R152). -/
theorem State.Inv.resetBlock {s : State} (h : s.Inv) (level : Bool) : (s.resetBlock level).Inv := by
  obtain ⟨hmt, hmti, hcp⟩ := Internal.unspecified_shape s.epoch
  constructor <;> simp only [State.resetBlock_mem, State.resetBlock_status, State.resetBlock_eng, State.resetBlock_platform]
  case memory =>
    rw [State.abandon_mem]
    split
    · rename_i hb
      exact h.wf_writeBytes_dst hb (by simp)
    · exact h.memory
  case prngShape => exact ⟨hmt, hmti⟩
  case cpShape => exact hcp
  case depth => exact h.depth
  all_goals simp

theorem State.Inv.driveReset {s : State} (h : s.Inv) (level : Bool) : (s.driveReset level).Inv := by
  rcases s.driveReset_cases level with ⟨-, ht⟩ | ⟨-, -, ht⟩ <;> rw [ht]
  · exact h.resetBlock level
  · exact h

/-! #### The host's own accesses to buffer memory (R74) -/

theorem State.Inv.hostWrite {s : State} (h : s.Inv) (addr : Word) (v : Byte) : (s.hostWrite addr v).Inv :=
  { h with memory := Memory.wf_write h.memory addr.isLt v }

theorem State.Inv.hostRead {s : State} (h : s.Inv) (addr : Word) : (s.hostRead addr).Inv := by
  rcases s.hostRead_cases addr with ⟨-, -, ht⟩ | ⟨-, ht⟩ <;> rw [ht] <;> exact { h with }

/-! #### Every step -/

/-- Settles O11, by the cases of a step: each operation of the machine keeps the invariant. -/
theorem stepKeepsInv : Obligations.StepKeepsInv := by
  intro s t h hstep
  cases step_cases hstep with
  | engine u turn busy rst eq =>
    obtain ⟨es, hu⟩ := turn.eq_withSchedule
    subst eq
    exact (h.engineTurn turn).finish (by simpa [hu] using busy) (u.result_length u.op)
  | idle u turn idle eq => exact eq ▸ h.engineTurn turn
  | hostDone rest sched empty eq => exact eq ▸ { h with }
  | access u passed a i next rst dec run => exact (h.passed passed).exec_access dec run
  | waitIdle rest p sched prog rst eq => exact eq ▸ (h.passed ⟨rest, _, rfl⟩).respond _
  | refusedAccess u passed a e next rst dec eq => exact eq ▸ (h.passed passed).respond _
  | hostWrite u passed addr v move eq => exact eq ▸ (h.passed passed).hostWrite addr v
  | hostRead u passed addr move eq => exact eq ▸ (h.passed passed).hostRead addr
  | reset level rest sched eq => exact eq ▸ (h.passed ⟨rest, s.program, rfl⟩).driveReset level

end Sys2Proof.Machine

/-! ### What a command's result depends on (R18) -/

namespace Sys2Proof.Machine

/-! #### The downward shuffle permutes (R97) -/

/-- A draw of `Interval` is at most its bound (R95). -/
theorem interval_le (max : Word) (g : Prng) : (interval max g).1 ≤ max := by
  unfold interval
  split
  · rename_i h
    exact h ▸ BitVec.le_refl _
  · exact drawMasked_le _ _ _ _

/-- The index that R97 draws for entry `i` is one of `0..i`. -/
theorem interval_ofNat_le (i : Nat) (g : Prng) : (interval (BitVec.ofNat 32 i) g).1.toNat ≤ i :=
  calc
    _ ≤ (BitVec.ofNat 32 i).toNat := BitVec.le_def.1 (interval_le _ g)
    _ ≤ i := by rw [BitVec.toNat_ofNat]; exact Nat.mod_le _ _

/-- The loop of R97 permutes every list that holds the entries it visits. -/
theorem shuffleFrom_perm {i : Nat} {p : List Nat} (h : i < p.length) (g : Prng) : (shuffleFrom i p g).1.Perm p := by
  induction i generalizing p g with
  | zero => exact .refl p
  | succ i ih =>
    rw [shuffleFrom_succ]
    refine (ih (by rw [swapEntries_length]; omega) _).trans (swapEntries_perm p h ?_)
    exact lt_of_le_of_lt (interval_ofNat_le _ g) h

/-- `ShuffleIdentity(n)` is a permutation of `0..n-1`. -/
theorem shuffleIdentity_perm (n : Nat) (g : Prng) : (shuffleIdentity n g).1.Perm (List.range n) := by
  cases n with
  | zero => exact .refl _
  | succ n => exact shuffleFrom_perm (by simp) g

@[simp] theorem shuffleIdentity_length (n : Nat) (g : Prng) : (shuffleIdentity n g).1.length = n := by
  simpa using (shuffleIdentity_perm n g).length_eq

/-! #### A unit reads only what it has loaded -/

/-- A written entry does not depend on the epoch of the free values. -/
theorem Store.get_congr {α : Type} (free : Nat → Nat → α) {st st' : Store α} (hw : st'.written = st.written) {i : Nat}
    (hi : i < st.written.length) : st'.get free i = st.get free i := by
  unfold Store.get
  rw [hw, List.getD_eq_getElem _ _ hi, List.getD_eq_getElem _ _ hi]

theorem perSample_congr {n : Nat} {f f' : Nat → Byte} (h : ∀ a, a < 3 * n → f' a = f a) : perSample n f' = perSample n f :=
  List.map_congr_left fun a ha => h a (List.mem_range.1 ha)

/-! What a load leaves in its array: none of it is taken from the internal state before (R102, R107, R122, R123). -/

@[simp] theorem loadXorStream_written (key : Word) (n : Nat) (e : Internal) :
    (loadXorStream key n e).xorStream.written = (drawBytes (3 * n) (reseed (seedOf key))).1 := rfl

@[simp] theorem generatePerm_written (key : Word) (n : Nat) (e : Internal) :
    (generatePerm key n e).perm.written = (shuffleIdentity n (reseed (seedOf key))).1.map (BitVec.ofNat 32) := rfl

@[simp] theorem loadNoise_cp (key : Word) (n : Nat) (e : Internal) :
    (loadNoise key n e).cp = (shuffleIdentity 3 (reseed (seedOf key))).1.map (BitVec.ofNat 2) := rfl

@[simp] theorem loadNoise_written (key : Word) (n : Nat) (e : Internal) :
    (loadNoise key n e).noise.written = (drawNoise (3 * n) (shuffleIdentity 3 (reseed (seedOf key))).2).1 := rfl

/-- The XOR stream has a byte for each sample (R102), so the combiner reads no other. -/
theorem xorCombine_congr (key : Word) (n : Nat) (src : List Byte) (e e' : Internal) :
    xorCombine n src (loadXorStream key n e') = xorCombine n src (loadXorStream key n e) := by
  refine perSample_congr fun a ha => ?_
  rw [Store.get_congr (st := (loadXorStream key n e).xorStream) _ (by simp) (by simpa using ha)]

/-- The permutation has an entry for each pixel (R107). -/
theorem permAt_generatePerm_congr (key : Word) (n : Nat) (e e' : Internal) {i : Nat} (hi : i < n) :
    (generatePerm key n e').permAt i = (generatePerm key n e).permAt i :=
  congrArg BitVec.toNat (Store.get_congr _ (by simp) (by simpa using hi))

theorem gatherPixels_congr (key : Word) (n : Nat) (src : List Byte) (e e' : Internal) :
    gatherPixels n src (generatePerm key n e') = gatherPixels n src (generatePerm key n e) := by
  refine perSample_congr fun a ha => ?_
  rw [permAt_generatePerm_congr key n e e' (by omega)]

theorem scatterPixels_congr (key : Word) (n : Nat) (src : List Byte) (e e' : Internal) :
    scatterPixels n src (generatePerm key n e') = scatterPixels n src (generatePerm key n e) := by
  refine List.foldl_ext _ _ _ fun out a ha => ?_
  have hn := List.mem_range.1 ha
  rw [permAt_generatePerm_congr key n e e' (by omega)]

/-- There is a noise value for each sample (R123). -/
theorem noiseAt_loadNoise_congr (key : Word) (n : Nat) (e e' : Internal) {a : Nat} (ha : a < 3 * n) :
    (loadNoise key n e').noiseAt a = (loadNoise key n e).noiseAt a :=
  Store.get_congr _ (by simp) (by simpa using ha)

/-- CI is defined on the three channels, since CP is a permutation of them (R122, R126). -/
theorem ciAt_loadNoise_lt (key : Word) (n : Nat) (e : Internal) {j : Nat} (hj : j < 3) : (loadNoise key n e).ciAt j < 3 := by
  have hperm := shuffleIdentity_perm 3 (reseed (seedOf key))
  have hmem : BitVec.ofNat 2 j ∈ (loadNoise key n e).cp :=
    List.mem_map_of_mem (hperm.mem_iff.2 (List.mem_range.2 hj))
  have hlen : (loadNoise key n e).cp.length = 3 := by simp
  exact hlen ▸ List.idxOf_lt_length_of_mem hmem

theorem addNoise_congr (key : Word) (n : Nat) (src : List Byte) (e e' : Internal) :
    addNoise n src (loadNoise key n e') = addNoise n src (loadNoise key n e) := by
  refine perSample_congr fun a ha => ?_
  rw [noiseAt_loadNoise_congr key n e e' ha]
  rfl

/-- The staging of a pixel holds the same three samples (R128, R130). -/
theorem stagePixel_written_congr (key : Word) (n : Nat) (src : List Byte) (e e' : Internal) {p : Nat} (hp : p < n) :
    (stagePixel src p (loadNoise key n e')).stage.written = (stagePixel src p (loadNoise key n e)).stage.written := by
  simp only [stagePixel, List.map_inj_left, List.mem_range]
  intro k hk
  rw [noiseAt_loadNoise_congr key n e e' (by omega)]

theorem removeNoise_congr (key : Word) (n : Nat) (src : List Byte) (e e' : Internal) :
    removeNoise n src (loadNoise key n e') = removeNoise n src (loadNoise key n e) := by
  refine perSample_congr fun a ha => ?_
  have hci : (loadNoise key n e').ciAt (a % 3) = (loadNoise key n e).ciAt (a % 3) := rfl
  rw [hci]
  refine Store.get_congr _ (stagePixel_written_congr key n src e e' (by omega)) ?_
  simpa [stagePixel] using ciAt_loadNoise_lt key n e (Nat.mod_lt a (by omega))

/-! #### The result (R82) -/

/-- Two states whose KEY, pixel count and source bytes agree have the same result, whatever their internal state holds. -/
theorem State.result_congr {s s' : State} (op : Op) (key : s'.key = s.key) (pixels : s'.pixels = s.pixels)
    (source : s'.sourceBytes = s.sourceBytes) : s'.result op = s.result op := by
  obtain ⟨m, d⟩ := op
  cases m <;> cases d <;> simp only [State.result, key, pixels, source]
  case xor.enc | xor.dec => exact xorCombine_congr _ _ _ _ _
  case swap.enc => exact gatherPixels_congr _ _ _ _ _
  case swap.dec => exact scatterPixels_congr _ _ _ _ _
  case shuffle.enc => exact addNoise_congr _ _ _ _ _
  case shuffle.dec => exact removeNoise_congr _ _ _ _ _

theorem State.sourceBytes_congr {s s' : State} (len : s'.len = s.len) (source : ∀ a : Nat, a < s.len → s'.sourceAt a = s.sourceAt a) :
    s'.sourceBytes = s.sourceBytes := by
  unfold State.sourceBytes Memory.readBytes
  rw [len]
  exact List.map_congr_left fun a ha => source a (List.mem_range.1 ha)

/-- Settles O38: both runs complete with the result function of R82, which sees only the five inputs. -/
theorem resultDependsOnlyOnItsFiveInputs : Obligations.ResultDependsOnlyOnItsFiveInputs := by
  intro op s s' hi hi' h h' key height width source
  have pixels : s'.pixels = s.pixels := by rw [State.pixels, State.pixels, height, width]
  have len : s'.len = s.len := by rw [State.len, State.len, pixels]
  have result : s'.result op = s.result op := State.result_congr op key pixels (State.sourceBytes_congr len source)
  obtain ⟨t, ht, done⟩ := exec_launched hi h
  obtain ⟨t', ht', done'⟩ := exec_launched hi' h'
  refine ⟨t, t', ht, ht', fun a ha => ?_⟩
  rw [done.result a ha, done'.result a (len ▸ ha), result]

end Sys2Proof.Machine

/-! ### What a register access does, register by register (R22 to R41, R76, R77) -/

namespace Sys2Proof.Machine

/-! #### The offsets of the window (R22) -/

@[simp] theorem regAt_offset (r : Reg) : regAt r.offset = r := by
  cases r <;> rfl

/-- A write at an aligned offset, out of reset, is the write of the register that stands there (R77). -/
theorem exec_wr_at {s : State} {off : BitVec 6} {r : Reg} (hr : s.rst = false) (ha : offsetAligned off = true)
    (h : regAt off = r) (d : Word) : exec (.wr off d) s = .next ((s.writeReg d r).respond .done) := by
  rw [exec_wr, State.portAccess_aligned _ hr ha, h]

/-- A read at an aligned offset, out of reset, answers with the register that stands there (R76). -/
theorem exec_rd_at {s : State} {off : BitVec 6} {r : Reg} (hr : s.rst = false) (ha : offsetAligned off = true)
    (h : regAt off = r) : exec (.rd off) s = .next (s.respond (.data (s.readReg r))) := by
  rw [exec_rd, State.portAccess_aligned _ hr ha, h]

theorem exec_wr_offset {s : State} (hr : s.rst = false) (r : Reg) (d : Word) :
    exec (.wr r.offset d) s = .next ((s.writeReg d r).respond .done) :=
  exec_wr_at hr (offsetAligned_offset r) (regAt_offset r) d

/-! #### The configuration lock (R41) -/

/-- The registers that R41 locks while BUSY. -/
def lockedRegs : List Reg := [.key, .srcBase, .dstBase, .height, .width, .channels, .cmd]

/-- A write to CMD while BUSY is ignored (R41, R77). -/
theorem State.writeCommand_busy {s : State} (h : s.status.busy = true) (w : Word) : s.writeCommand w = s.ignoreWrite := by
  rw [State.writeCommand, if_pos h]

/-- A write to CMD while IDLE arrives at the sequencer (R77, R78). -/
theorem State.writeCommand_idle {s : State} (h : s.status.busy = false) (w : Word) : s.writeCommand w = s.accept w := by
  rw [State.writeCommand, if_neg (by simp [h])]

/-- While BUSY a write to a locked register only sets IGN (R41). -/
theorem State.writeReg_locked {s : State} {r : Reg} (hb : s.status.busy = true) (hr : r ∈ lockedRegs) (d : Word) :
    s.writeReg d r = s.ignoreWrite := by
  cases r with
  | id | caps | status | irqEn | errAddr | reserved => exact absurd hr (by decide)
  | cmd => exact s.writeCommand_busy hb d
  | key | srcBase | dstBase | height | width | channels => simp [State.lockedWrite_busy _ hb]

/-! #### What a running command reads, and what else the block stores -/

/-- The latched command and the configuration registers are those of `s`: what R41 holds still during a command. -/
structure State.SameOperands (s t : State) : Prop where
  key : t.key = s.key
  srcBase : t.srcBase = s.srcBase
  dstBase : t.dstBase = s.dstBase
  height : t.height = s.height
  width : t.width = s.width
  channels : t.channels = s.channels
  op : t.op = s.op

/-- Every register that the block stores (R22 to R41), and the latched command, are those of `s`. -/
structure State.SameRegisters (s t : State) : Prop extends s.SameOperands t where
  status : t.status = s.status
  irqEn : t.irqEn = s.irqEn
  errAddr : t.errAddr = s.errAddr

/-- While BUSY no register write changes an operand: the locked ones are ignored, and STATUS and IRQ_EN are none (R41). -/
theorem State.writeReg_sameOperands {s : State} (hb : s.status.busy = true) (d : Word) (r : Reg) :
    s.SameOperands (s.writeReg d r) := by
  by_cases hl : r ∈ lockedRegs
  · rw [State.writeReg_locked hb hl]
    exact ⟨rfl, rfl, rfl, rfl, rfl, rfl, rfl⟩
  · cases r with
    | id | caps | irqEn | errAddr | reserved => exact ⟨rfl, rfl, rfl, rfl, rfl, rfl, rfl⟩
    | status =>
      rw [State.writeReg_status, State.writeStatus_eq]
      exact ⟨rfl, rfl, rfl, rfl, rfl, rfl, rfl⟩
    | key | srcBase | dstBase | height | width | channels | cmd => exact absurd (by decide) hl

/-- A locked write that keeps a field keeps it while BUSY too, where it only sets IGN. -/
theorem State.lockedWrite_keeps {α : Type} (f : State → α) {s : State} {write : State → State}
    (ignored : f s.ignoreWrite = f s) (made : f (write s) = f s) : f (s.lockedWrite write) = f s := by
  unfold State.lockedWrite
  split
  · exact ignored
  · exact made

/-- No write but one to CMD changes BUSY (R21, R32). -/
theorem State.busy_writeReg {r : Reg} (hr : r ≠ .cmd) (s : State) (d : Word) :
    (s.writeReg d r).status.busy = s.status.busy := by
  cases r with
  | id | caps | irqEn | errAddr | reserved => rfl
  | cmd => exact absurd rfl hr
  | status => rw [State.writeReg_status, State.writeStatus_eq]
  | key | srcBase | dstBase | height | width | channels => exact State.lockedWrite_keeps (·.status.busy) rfl rfl

/-- No register write ends a command. -/
theorem State.busy_writeReg_of_busy {s : State} (hb : s.status.busy = true) (d : Word) (r : Reg) :
    (s.writeReg d r).status.busy = true := by
  by_cases hr : r = .cmd
  · rw [hr, State.writeReg_cmd, State.writeCommand_busy hb]
    exact hb
  · rw [State.busy_writeReg hr, hb]

/-- No register write changes ERRADDR (R39, R77). -/
theorem State.writeReg_keeps_errAddr (s : State) (d : Word) (r : Reg) : (s.writeReg d r).errAddr = s.errAddr := by
  cases r with
  | id | caps | irqEn | errAddr | reserved => rfl
  | cmd =>
    rw [State.writeReg_cmd, State.writeCommand]
    split
    · rfl
    · rcases s.accept_cases d with ⟨op, -, -, ht⟩ | ⟨code, -, -, ht⟩ <;> rw [ht] <;> rfl
  | status => rw [State.writeReg_status, State.writeStatus_eq]
  | key | srcBase | dstBase | height | width | channels => exact State.lockedWrite_keeps (·.errAddr) rfl rfl

/-- A register write starts a command only as an accepted write to CMD (R21, R78, R81). -/
theorem State.writeReg_starts {s : State} {d : Word} {r : Reg} (idle : s.status.busy = false)
    (h : (s.writeReg d r).status.busy = true) :
    r = .cmd ∧ decodeOp d = .ok (s.writeReg d r).op ∧ s.checkOperands (s.writeReg d r).op = .none := by
  by_cases hr : r = .cmd
  · subst hr
    rw [State.writeReg_cmd, State.writeCommand_idle idle] at h ⊢
    rcases s.accept_cases d with ⟨op, hd, hc, ht⟩ | ⟨code, -, -, ht⟩
    · rw [ht]
      exact ⟨rfl, hd, hc⟩
    · rw [ht] at h
      simp [idle] at h
  · rw [State.busy_writeReg hr, idle] at h
    cases h

end Sys2Proof.Machine

/-! ### What a step does to the registers -/

namespace Sys2Proof.Machine

/-- The engine's turn passes nothing else either. -/
theorem EngineTurn.passed {s u : State} (h : EngineTurn s u) : Passed s u := by
  obtain ⟨es, rfl⟩ := h.eq_withSchedule
  exact ⟨es, s.program, rfl⟩

theorem Passed.sameRegisters {s u : State} (h : Passed s u) : s.SameRegisters u := by
  obtain ⟨es, p, rfl⟩ := h
  exact ⟨⟨rfl, rfl, rfl, rfl, rfl, rfl, rfl⟩, rfl, rfl, rfl⟩

/-- The checks and the access set see neither the schedule nor the host's program. -/
theorem Passed.checkOperands {s u : State} (h : Passed s u) (op : Op) : u.checkOperands op = s.checkOperands op := by
  obtain ⟨es, p, rfl⟩ := h
  rfl

theorem Passed.erring {s u : State} (h : Passed s u) : u.erring = s.erring := by
  obtain ⟨es, p, rfl⟩ := h
  rfl

theorem State.SameRegisters.respond {s t : State} (h : s.SameRegisters t) (r : Response) : s.SameRegisters (t.respond r) :=
  { h with }

/-- What a step from `s` to `t` can do to the registers: the cases of `StepCase` that differ for a host that reads them. -/
inductive RegisterStep (s t : State) : Prop where
  /-- It changes none of them. -/
  | still (same : s.SameRegisters t)
  /-- A register is written (R77). -/
  | write (u : State) (passed : Passed s u) (a : BusAccess) (next : s.nextAccess = some (s.platform.regPage, a))
      (isWrite : a.write = true) (dec : decodeBus a = .ok (.wr a.addr a.data))
      (eq : t = (u.writeReg a.data (regAt a.addr)).respond .done)
  /-- The running command completes (R83). -/
  | complete (u : State) (passed : Passed s u) (busy : s.status.busy = true) (noErring : s.erring = []) (r : List Byte)
      (eq : t = u.complete r)
  /-- The running command ends with a bus error (R84). -/
  | busError (u : State) (passed : Passed s u) (busy : s.status.busy = true) (x : Word × AccessDir)
      (more : List (Word × AccessDir)) (erring : s.erring = x :: more) (eq : t = u.busErrorEnd x more)
  /-- The block is reset (R151). -/
  | reset (level : Bool) (rest : List Event) (sched : s.schedule = .rst level :: rest) (active : level = true ∨ s.rst = true)
      (eq : t = (s.withSchedule rest).resetBlock level)

theorem State.hostRead_sameRegisters (s : State) (addr : Word) : s.SameRegisters (s.hostRead addr) := by
  rcases s.hostRead_cases addr with ⟨-, -, ht⟩ | ⟨-, ht⟩ <;> rw [ht] <;>
    exact ⟨⟨rfl, rfl, rfl, rfl, rfl, rfl, rfl⟩, rfl, rfl, rfl⟩

/-- The engine's move on a running command, seen at the registers (R83, R84, R146). -/
theorem State.finish_registerStep {s u : State} (passed : Passed s u) (busy : s.status.busy = true) (r : List Byte) :
    RegisterStep s (u.finish r) := by
  rcases u.finish_cases r with ⟨-, -, ht⟩ | ⟨he, -, ht⟩ | ⟨x, more, he, ht⟩
  · rw [ht]
    exact .still passed.sameRegisters
  · exact .complete u passed busy (passed.erring ▸ he) r ht
  · exact .busError u passed busy x more (passed.erring ▸ he) ht

/-- A register access, seen at the registers (R76, R77): only an aligned write reaches one. -/
theorem exec_access_registerStep {s u t : State} {a : BusAccess} {i : Instr} (passed : Passed s u)
    (next : s.nextAccess = some (s.platform.regPage, a)) (rst : s.rst = false) (dec : decodeBus a = .ok i)
    (run : exec i u = .next t) : RegisterStep s t := by
  have hr : u.rst = false := by
    obtain ⟨es, p, rfl⟩ := passed
    exact rst
  obtain ⟨ha, ⟨hw, rfl⟩ | ⟨-, rfl⟩⟩ := decodeBus_ok dec
  · rw [exec_wr_at hr ha rfl] at run
    cases run
    exact .write u passed a next hw dec rfl
  · rw [exec_rd_at hr ha rfl] at run
    cases run
    exact .still (passed.sameRegisters.respond _)

/-- What a step that answers a next state has done to the registers. -/
theorem step_registerStep {s t : State} (h : step s = .next t) : RegisterStep s t := by
  cases step_cases h with
  | engine u turn busy rst eq => exact eq ▸ State.finish_registerStep turn.passed busy _
  | idle u turn idle eq => exact .still (eq ▸ turn.passed.sameRegisters)
  | hostDone rest sched empty eq =>
    subst eq
    exact .still (Passed.sameRegisters ⟨rest, s.program, rfl⟩)
  | access u passed a i next rst dec run => exact exec_access_registerStep passed next rst dec run
  | waitIdle rest p sched prog rst eq =>
    subst eq
    exact .still ((Passed.sameRegisters ⟨rest, _, rfl⟩).respond _)
  | refusedAccess u passed a e next rst dec eq => exact .still (eq ▸ passed.sameRegisters.respond _)
  | hostWrite u passed addr v move eq =>
    subst eq
    exact .still { passed.sameRegisters with }
  | hostRead u passed addr move eq =>
    subst eq
    obtain ⟨es, p, rfl⟩ := passed
    exact .still { State.hostRead_sameRegisters _ addr with }
  | reset level rest sched eq =>
    rcases (s.withSchedule rest).driveReset_cases level with ⟨active, ht⟩ | ⟨-, -, ht⟩
    · exact .reset level rest sched active (eq.trans ht)
    · subst eq
      rw [ht]
      exact .still (Passed.sameRegisters ⟨rest, s.program, rfl⟩)

/-! #### RUN and IDLE (R21) -/

/-- Settles O12, by what a step can do to the registers: of these only a write can raise BUSY, and of the writes only an accepted one
to CMD. -/
theorem runIsEnteredOnlyByAcceptance : Obligations.RunIsEnteredOnlyByAcceptance := by
  intro s t idle hstep busy
  cases step_registerStep hstep with
  | still same =>
    rw [same.status, idle] at busy
    cases busy
  | write u passed a next isWrite dec eq =>
    subst eq
    obtain ⟨hcmd, hop, hcheck⟩ := State.writeReg_starts (passed.sameRegisters.status ▸ idle) busy
    exact ⟨a, next, isWrite, hcmd, dec, hop, (passed.checkOperands _).symm.trans hcheck⟩
  | complete u passed running noErring r eq => simp [running] at idle
  | busError u passed running x more erring eq => simp [running] at idle
  | reset level rest sched active eq => simp [eq] at busy

/-- Settles O13: a write keeps BUSY, and a running command's flags before its end are 0 by the invariant. -/
theorem runIsLeftOnlyByItsThreeEnds : Obligations.RunIsLeftOnlyByItsThreeEnds := by
  intro s t hinv busy hstep idle
  obtain ⟨hdone, herr⟩ := hinv.busyNoOutcome busy
  cases step_registerStep hstep with
  | still same =>
    rw [same.status, busy] at idle
    cases idle
  | write u passed a next isWrite dec eq =>
    have hkeep := State.busy_writeReg_of_busy (passed.sameRegisters.status ▸ busy) a.data (regAt a.addr)
    rw [eq, State.respond_status, hkeep] at idle
    cases idle
  | complete u passed running noErring r eq =>
    left
    rw [eq, State.complete_status, passed.sameRegisters.status]
    exact ⟨noErring, rfl, herr⟩
  | busError u passed running x more erring eq =>
    right; left
    rw [eq, State.busErrorEnd_status, passed.sameRegisters.status, erring]
    exact ⟨by simp, hdone, rfl, rfl⟩
  | reset level rest sched active eq =>
    right; right
    have hrst : s.rst = false := by
      by_contra hr
      simp [hinv.resetIdle (by simpa using hr)] at busy
    obtain rfl : level = true := active.resolve_right (by simp [hrst])
    exact ⟨rest, sched, by rw [eq]; rfl⟩

/-- No step that leaves the command running changes one of its operands (R41). -/
theorem step_sameOperands_of_busy {s t : State} (busy : s.status.busy = true) (h : step s = .next t)
    (busy' : t.status.busy = true) : s.SameOperands t := by
  cases step_registerStep h with
  | still same => exact same.toSameOperands
  | write u passed a next isWrite dec eq =>
    subst eq
    obtain ⟨es, p, rfl⟩ := passed
    exact { State.writeReg_sameOperands (s := (s.withSchedule es).withProgram p) busy a.data (regAt a.addr) with }
  | complete u passed running noErring r eq => simp [eq, State.complete_status] at busy'
  | busError u passed running x more erring eq => simp [eq, State.busErrorEnd_status] at busy'
  | reset level rest sched active eq => simp [eq] at busy'

/-! #### ERRADDR (R39) -/

/-- Settles O15: of what a step can do to the registers, writes and completion keep ERRADDR. -/
theorem onlyBusErrorWritesErrAddr : Obligations.OnlyBusErrorWritesErrAddr := by
  intro s t hstep changed
  cases step_registerStep hstep with
  | still same => exact absurd same.errAddr changed
  | write u passed a next isWrite dec eq =>
    refine absurd ?_ changed
    rw [eq, State.respond_errAddr, State.writeReg_keeps_errAddr, passed.sameRegisters.errAddr]
  | complete u passed running noErring r eq =>
    refine absurd ?_ changed
    rw [eq, State.complete_errAddr, passed.sameRegisters.errAddr]
  | busError u passed running x more erring eq =>
    left
    rw [eq, State.busErrorEnd_status, erring]
    exact ⟨running, by simp, rfl⟩
  | reset level rest sched active eq => exact .inr ⟨level, rest, sched, by rw [eq]; rfl⟩

end Sys2Proof.Machine

/-! ### The registers: reads, writes, STATUS, reset (10_state.md) -/

namespace Sys2Proof.Machine

/-! #### The state after reset (R49) -/

/-- Settles O9: `State.reset` writes the table of R49 out. -/
theorem resetStateHasTheTableValues : Obligations.ResetStateHasTheTableValues :=
  ⟨rfl, rfl, rfl, rfl, rfl, rfl, rfl, rfl, rfl, rfl, rfl, rfl, rfl, rfl⟩

/-- Settles O10: no command runs, no outcome stands, and the generator's arrays have their lengths. -/
theorem invHoldsAtReset : Obligations.InvHoldsAtReset where
  memory := Memory.wf_nil
  oneOutcome h := nomatch h.1
  busyNoOutcome h := nomatch h
  codeWithErr := by simp [State.reset]
  accepted h := nomatch h
  resetIdle h := nomatch h
  prngShape := ⟨List.length_replicate, Nat.zero_le _⟩
  cpShape := rfl
  depth := by decide

/-! #### The steps that no register access makes -/

/-- The engine's move on a running command (R81). -/
theorem State.engineMove_running {s : State} (busy : s.status.busy = true) (hr : s.rst = false) :
    s.engineMove = .run s.op.instr s := by
  simp [State.engineMove, busy, hr]

/-- The step of a scheduled level of the reset input (R151). -/
theorem step_rst {s : State} {level : Bool} {rest : List Event} (h : s.schedule = .rst level :: rest) :
    step s = .next ((s.withSchedule rest).driveReset level) := by
  simp [step, State.nextMove, h]

/-- Settles O6: the instruction that the latched command's word decodes to is the one that the engine's move runs. -/
theorem stepRunsTheLatchedCommand : Obligations.StepRunsTheLatchedCommand := by
  intro s i busy hr hdec
  obtain rfl : s.op.instr = i := by
    rw [decode, decodeCmdw_word] at hdec
    cases hdec
    rfl
  refine ⟨fun rest hs => ?_, fun hs => ?_⟩
  · have hmove : (s.withSchedule rest).engineMove = .run s.op.instr (s.withSchedule rest) :=
      State.engineMove_running busy hr
    simp only [step, State.nextMove, hs, hmove]
    rfl
  · simp only [step, State.nextMove, hs, State.engineMove_running busy hr]

/-- Settles O52: an asserted reset input resets the block, which gives up no byte but those of an abandoned command's destination. -/
theorem resetInputAsserted : Obligations.ResetInputAsserted := by
  intro s rest hs
  have hmem : ((s.withSchedule rest).resetBlock true).mem =
      if s.status.busy then s.mem.writeBytes s.dst (freeBytes s.epoch s.len) else s.mem := by
    rw [State.resetBlock_mem, State.abandon_mem]
    rfl
  refine ⟨(s.withSchedule rest).resetBlock true, step_rst hs, rfl, rfl, rfl, rfl, rfl, rfl, rfl, rfl, rfl, rfl, rfl,
    State.resetBlock_platform _ _, State.resetBlock_schedule _ _, fun idle => ?_, fun a ha => ?_⟩
  · simp [hmem, idle]
  · rw [hmem]
    split
    · exact s.read_writeBytes_dst (by simp) ha
    · rfl

/-! #### Writes to the registers (R24 to R41, R77) -/

/-- Settles O17: the four offsets are those where `reserved` stands. -/
theorem reservedOffsets : Obligations.ReservedOffsets := by
  intro s off d hr hoff
  obtain ⟨ha, hreg⟩ : offsetAligned off = true ∧ regAt off = .reserved := by
    revert off
    decide
  exact ⟨exec_rd_at hr ha hreg, exec_wr_at hr ha hreg d⟩

/-- Settles O18: the three offsets are those of registers on which a write has no effect. -/
theorem readOnlyRegistersIgnoreWrites : Obligations.ReadOnlyRegistersIgnoreWrites := by
  intro s off d hr hoff
  simp only [List.mem_cons, List.not_mem_nil, or_false] at hoff
  rcases hoff with rfl | rfl | rfl
  · exact exec_wr_offset hr .id d
  · exact exec_wr_offset hr .caps d
  · exact exec_wr_offset hr .errAddr d

/-- Settles O20: while IDLE a locked write is made. -/
theorem idleConfigurationWrites : Obligations.IdleConfigurationWrites := by
  intro s d idle hr
  refine ⟨(exec_wr_offset hr .key d).trans ?_, (exec_wr_offset hr .srcBase d).trans ?_, (exec_wr_offset hr .dstBase d).trans ?_,
    (exec_wr_offset hr .height d).trans ?_, (exec_wr_offset hr .width d).trans ?_, (exec_wr_offset hr .channels d).trans ?_⟩ <;>
    simp [State.lockedWrite_idle _ idle, State.respond]

/-- Settles O21, by the equation of a STATUS write. -/
theorem statusWriteOneToClear : Obligations.StatusWriteOneToClear := by
  intro s d hr
  have h := exec_wr_offset hr .status d
  rwa [State.writeReg_status, State.writeStatus_eq] at h

/-- Settles O22: the line reads the new enable bits, and the pending bits are those of before. -/
theorem interruptEnableWrite : Obligations.InterruptEnableWrite := by
  intro s d hr
  refine ⟨_, exec_wr_offset hr .irqEn d, rfl, ?_⟩
  simp [State.irq, State.doneIe, State.errIe, hr]

/-- Settles O14: a locked register ignores a write while BUSY, STATUS and IRQ_EN do not (O21, O22), and no step changes an operand. -/
theorem configurationLock : Obligations.ConfigurationLock := by
  refine ⟨fun s off d busy hr hoff => ?_, fun s d busy hr => ⟨exec_wr_offset hr .irqEn d, ?_⟩, fun s t _ busy hstep busy' => ?_⟩
  · obtain ⟨ha, hlocked⟩ : offsetAligned off = true ∧ regAt off ∈ lockedRegs := by
      revert off
      decide
    rw [exec_wr_at hr ha rfl, State.writeReg_locked busy hlocked]
    rfl
  · rw [statusWriteOneToClear s d hr, busy]
  · have same := step_sameOperands_of_busy busy hstep busy'
    exact ⟨same.key, same.srcBase, same.dstBase, same.height, same.width, same.channels, same.op⟩

/-! #### The STATUS word (R32 to R37) -/

/-- Each bit of STATUS: the four flags, then the error code's field from bit 4 on. (`BitVec.getLsbD_append` needs the width of the
concatenation as the sum of its fields' widths.) -/
theorem Status.getLsbD_word (st : Status) (i : Nat) :
    st.word.getLsbD i =
      if i = 0 then st.busy else if i = 1 then st.done else if i = 2 then st.err else if i = 3 then st.ign
      else (if st.err then st.errCode.bits else 0#4).getLsbD (i - 4) := by
  unfold Status.word
  generalize (if st.err then st.errCode.bits else 0#4) = code
  change BitVec.getLsbD (w := 24 + 4 + 1 + 1 + 1 + 1) _ i = _
  simp only [BitVec.getLsbD_append, BitVec.getLsbD_ofBool]
  match i with
  | 0 | 1 | 2 | 3 => simp
  | j + 4 => simpa +contextual using BitVec.lt_of_getLsbD

/-- The error code's field, with the zero bits over it. -/
theorem Status.getLsbD_word_add_four (st : Status) (i : Nat) :
    st.word.getLsbD (4 + i) = (if st.err then st.errCode.bits else 0#4).getLsbD i := by
  rw [Status.getLsbD_word]
  simp (disch := omega) only [if_neg, Nat.add_sub_cancel_left]

/-- ERRCODE stands in bits [7:4], and reads 0 while ERR is 0 (R36). -/
theorem Status.extractLsb'_word_errCode (st : Status) :
    st.word.extractLsb' 4 4 = if st.err then st.errCode.bits else 0#4 := by
  ext i hi
  rw [BitVec.getElem_extractLsb', Status.getLsbD_word_add_four, BitVec.getLsbD_eq_getElem]

/-- Bits [31:8] are 0 (R37). -/
theorem Status.extractLsb'_word_high (st : Status) : st.word.extractLsb' 8 24 = 0#24 := by
  ext i hi
  rw [BitVec.getElem_extractLsb', show 8 + i = 4 + (4 + i) by omega, Status.getLsbD_word_add_four,
    BitVec.getLsbD_of_ge _ _ (by omega), BitVec.getElem_zero]

/-- Settles O19: the flags' bits one by one, and the error code's field by the table of R136. -/
theorem statusWordLayout : Obligations.StatusWordLayout := by
  intro st
  refine ⟨st.getLsbD_word 0, st.getLsbD_word 1, st.getLsbD_word 2, st.getLsbD_word 3, st.extractLsb'_word_high,
    fun noErr => ?_, fun err => ?_⟩
  · simp [Status.extractLsb'_word_errCode, noErr]
  · rw [Status.extractLsb'_word_errCode, if_pos err]
    refine ⟨?_, ?_, ?_, ?_, ?_, ?_⟩ <;> intro hc <;> rw [hc] <;> rfl

end Sys2Proof.Machine

/-! ### Buffer memory and the slave port (20_memory.md): the end of a running command, and the refused register accesses -/

namespace Sys2Proof.Machine

/-! #### What a running command writes (R61, R67) -/

/-- The latched command, running out of reset, takes the engine's move with its own result (R82 to R84, R146). -/
theorem exec_running {s : State} {op : Op} (busy : s.status.busy = true) (latched : s.op = op) (hr : s.rst = false) :
    exec op.instr s = .next (s.finish (s.result op)) := by
  rw [exec_instr, State.command_running _ busy latched hr]

/-- Where every access is admitted and answered, the engine's move completes the command (R83). -/
theorem State.finish_eq_complete {s : State} (admitted : s.erring = []) (answered : s.stalls = false) (r : List Byte) :
    s.finish r = s.complete r := by
  simp [State.finish, admitted, answered]

/-- Completion stores LEN bytes at the destination, disturbed or not. -/
theorem State.complete_onlyDestChanged (s : State) {r : List Byte} (hl : r.length = s.len) :
    s.OnlyDestChanged (s.complete r) := by
  intro a ha
  rw [State.complete_mem]
  exact s.read_writeBytes_dst (by split <;> simp [hl]) ha

/-- A bus error leaves LEN free bytes at the destination (R84). -/
theorem State.busErrorEnd_onlyDestChanged (s : State) (x : Word × AccessDir) (more : List (Word × AccessDir)) :
    s.OnlyDestChanged (s.busErrorEnd x more) := by
  intro a ha
  rw [State.busErrorEnd_mem]
  exact s.read_writeBytes_dst (freeBytes_length _ _) ha

/-- However the engine's move on a running command goes, it writes nothing but destination bytes (R67). -/
theorem State.finish_onlyDestChanged (s : State) {r : List Byte} (hl : r.length = s.len) :
    s.OnlyDestChanged (s.finish r) := by
  rcases s.finish_cases r with ⟨-, -, waits⟩ | ⟨-, -, completes⟩ | ⟨x, more, -, fails⟩
  · rw [waits]
    exact fun _ _ => rfl
  · rw [completes]
    exact s.complete_onlyDestChanged hl
  · rw [fails]
    exact s.busErrorEnd_onlyDestChanged x more

/-- Settles O48: a disturbed command completes as any other does; only which LEN bytes it stores at its destination differs. -/
theorem disturbedCommandCompletes : Obligations.DisturbedCommandCompletes := by
  intro s op busy latched hr _ admitted answered
  refine ⟨s.complete (s.result op), ?_, s.complete_status _, s.complete_errAddr _,
    s.complete_onlyDestChanged (s.result_length op), s.complete_sameOutside _⟩
  rw [exec_running busy latched hr, State.finish_eq_complete admitted answered]

/-- Settles O49: the engine writes destination bytes alone, and the accepted ranges of a running command share no byte (R79). A running
command is out of reset, so that the move is the engine's. -/
theorem engineNeverWritesTheSource : Obligations.EngineNeverWritesTheSource := by
  intro s op hinv busy latched
  have hr : s.rst = false := by
    by_contra h
    simp [hinv.resetIdle (by simpa using h)] at busy
  exact ⟨_, exec_running busy latched hr, fun a ha =>
    s.finish_onlyDestChanged (s.result_length op) a (hinv.inDest_of_inSource busy ha)⟩

/-! #### Refused register accesses (R55) -/

/-- The ALIGN field is not 0 exactly at a misaligned offset (R69). -/
theorem offsetAligned_eq_false_iff {off : BitVec 6} : offsetAligned off = false ↔ off.extractLsb' 0 2 ≠ 0#2 :=
  beq_eq_false_iff_ne

/-- A misaligned access out of reset is answered with a bus error and reaches no register. -/
theorem State.portAccess_misaligned {s : State} {off : BitVec 6} (access : State → State) (hr : s.rst = false)
    (ha : offsetAligned off = false) : s.portAccess off access = .next (s.respond .busError) := by
  simp [State.portAccess, hr, ha]

/-- A transaction that breaks one of R55's three rules decodes to nothing. -/
theorem decodeBus_refused {a : BusAccess} (h : a.size ≠ .word ∨ a.strobe ≠ 15#4 ∨ offsetAligned a.addr = false) :
    ∃ e, decodeBus a = .error e := by
  unfold decodeBus
  by_cases hsize : a.size = .word
  · by_cases hstrobe : a.strobe = 15#4
    · have ha : offsetAligned a.addr = false := by simpa [hsize, hstrobe] using h
      exact ⟨.misaligned, by simp [hsize, hstrobe, ha]⟩
    · exact ⟨.partialStrobe, by simp [hsize, hstrobe]⟩
  · exact ⟨.subWord, by simp [hsize]⟩

/-- A transaction on the block's window that decodes to nothing only gets a bus error response. -/
theorem State.busMove_error {s : State} {a : BusAccess} {e : DecodeError} (hr : s.rst = false) (hd : decodeBus a = .error e) :
    s.busMove s.platform.regPage a = .effect (s.respond .busError) := by
  simp [State.busMove, hr, hd]

/-- The step of a scheduled transaction on the block's window that decodes to nothing. -/
theorem step_bus_error {s : State} {a : BusAccess} {rest : List Event} {e : DecodeError}
    (hs : s.schedule = .bus s.platform.regPage a :: rest) (hr : s.rst = false) (hd : decodeBus a = .error e) :
    step s = .next ((s.withSchedule rest).respond .busError) := by
  have hmove : (s.withSchedule rest).busMove s.platform.regPage a = .effect ((s.withSchedule rest).respond .busError) :=
    State.busMove_error (s := s.withSchedule rest) hr hd
  simp only [step, State.nextMove, hs, hmove]

/-- Settles O8: each of the three grounds keeps the transaction from decoding. -/
theorem refusedRegisterAccessChangesNothing : Obligations.RefusedRegisterAccessChangesNothing := by
  intro s page a rest hs hpage hr refused
  subst hpage
  rw [← offsetAligned_eq_false_iff] at refused
  obtain ⟨e, hd⟩ := decodeBus_refused refused
  exact step_bus_error hs hr hd

/-- Settles O24: RD and WR are accesses on the port, which refuses a misaligned one. -/
theorem misalignedOperation : Obligations.MisalignedOperation := by
  intro s off d hr hoff
  have ha := offsetAligned_eq_false_iff.2 hoff
  exact ⟨(exec_rd off s).trans (State.portAccess_misaligned _ hr ha),
    (exec_wr off d s).trans (State.portAccess_misaligned _ hr ha)⟩

end Sys2Proof.Machine

/-! ### Encoding (30_encoding.md): the decoder undoes the encoder -/

namespace Sys2Proof

/-! #### The commands and the register accesses (R69, R71) -/

/-- Every instruction is the command of an operation (R71) or one of the host's two register accesses (R76, R77). -/
theorem Instr.command_or_access (i : Instr) :
    (∃ op : Op, i = op.instr) ∨ (∃ off, i = .rd off) ∨ ∃ off d, i = .wr off d := by
  cases i with
  | xorEnc => exact .inl ⟨⟨.xor, .enc⟩, rfl⟩
  | xorDec => exact .inl ⟨⟨.xor, .dec⟩, rfl⟩
  | swapEnc => exact .inl ⟨⟨.swap, .enc⟩, rfl⟩
  | swapDec => exact .inl ⟨⟨.swap, .dec⟩, rfl⟩
  | mathEnc => exact .inl ⟨⟨.math, .enc⟩, rfl⟩
  | mathDec => exact .inl ⟨⟨.math, .dec⟩, rfl⟩
  | shufEnc => exact .inl ⟨⟨.shuffle, .enc⟩, rfl⟩
  | shufDec => exact .inl ⟨⟨.shuffle, .dec⟩, rfl⟩
  | rd off => exact .inr (.inl ⟨off, rfl⟩)
  | wr off d => exact .inr (.inr ⟨off, d, rfl⟩)

/-- The frame of a command is its word. -/
@[simp] theorem encode_instr (op : Op) : encode op.instr = .cmdw op.word := by
  obtain ⟨m, d⟩ := op
  cases m <;> cases d <;> rfl

/-- The numbered form of a command is its word in 32 bits. -/
@[simp] theorem encodeNumber_instr (op : Op) : encodeNumber op.instr = (32, op.word.toNat) := by
  obtain ⟨m, d⟩ := op
  cases m <;> cases d <;> rfl

/-- The eight operations, one by one (R71). -/
theorem Op.exists_iff {P : Op → Prop} :
    (∃ op, P op) ↔ P ⟨.xor, .enc⟩ ∨ P ⟨.xor, .dec⟩ ∨ P ⟨.swap, .enc⟩ ∨ P ⟨.swap, .dec⟩ ∨
      P ⟨.math, .enc⟩ ∨ P ⟨.math, .dec⟩ ∨ P ⟨.shuffle, .enc⟩ ∨ P ⟨.shuffle, .dec⟩ := by
  constructor
  · rintro ⟨⟨m, d⟩, h⟩
    cases m <;> cases d <;> simp [h]
  · rintro (h | h | h | h | h | h | h | h) <;> exact ⟨_, h⟩

/-- Settles O1: a command by its word, a register access by its transaction, which decodes where the offset is aligned. -/
theorem decodeOfEncode : Obligations.DecodeOfEncode := by
  intro i wf
  rcases i.command_or_access with ⟨op, rfl⟩ | ⟨off, rfl⟩ | ⟨off, d, rfl⟩
  · rw [encode_instr]
    exact decodeCmdw_word op
  · exact decodeBus_readAccess wf
  · exact decodeBus_writeAccess wf d

/-- Settles O3: the words that decode are those of the eight operations, and the table gives these words as numbers. -/
theorem exactlyTheEightCommandWords : Obligations.ExactlyTheEightCommandWords := by
  intro w i
  rw [decodeCmdw_ok_iff, Op.exists_iff]
  rfl

/-! #### The numbered form of the opcode table -/

/-- Each field of a register access stands at its own bits of the number: the offset at 5..0, RW at 6, 0 at 7 and the data from
8 up. -/
theorem busOfNumber_fields (off : BitVec 6) (write : Bool) (d : Word) :
    busOfNumber (off.toNat + 64 * write.toNat + 256 * d.toNat) =
      some { write := write, addr := off, size := .word, strobe := 15#4, data := d } := by
  have hoff := off.isLt
  have hrw := write.toNat_le
  generalize hn : off.toNat + 64 * write.toNat + 256 * d.toNat = n
  have hpad : n.testBit 7 = false := by
    rw [Nat.testBit_eq_decide_div_mod_eq]
    simp only [decide_eq_false_iff_not]
    omega
  have hwrite : n.testBit 6 = write := by
    rw [Nat.testBit_eq_decide_div_mod_eq]
    cases write <;> simp at hn ⊢ <;> omega
  have haddr : BitVec.ofNat 6 n = off := BitVec.eq_of_toNat_eq (by rw [BitVec.toNat_ofNat]; omega)
  have hdata : BitVec.ofNat 32 (n / 256) = d := by
    rw [show n / 256 = d.toNat by omega, BitVec.ofNat_toNat, BitVec.setWidth_eq]
  simp [busOfNumber, hpad, hwrite, haddr, hdata]

/-- A number of 32 bits is a command word. -/
theorem frameOfNumber_word (w : Word) : frameOfNumber 32 w.toNat = some (.cmdw w) := by
  simp [frameOfNumber, w.isLt]

/-- A number of 7, 8 or 40 bits is a register access. -/
theorem frameOfNumber_access {nbits n : Nat} (hbits : nbits = 7 ∨ nbits = 8 ∨ nbits = 40) (hn : n < 2 ^ nbits) :
    frameOfNumber nbits n = (busOfNumber n).map .bus := by
  rw [frameOfNumber, if_neg (by omega), if_pos hbits, if_pos hn]

/-- The numbered form of an instruction, well formed or not, is the number of its frame. -/
theorem frameOfNumber_encodeNumber (i : Instr) :
    frameOfNumber (encodeNumber i).1 (encodeNumber i).2 = some (encode i) := by
  rcases i.command_or_access with ⟨op, rfl⟩ | ⟨off, rfl⟩ | ⟨off, d, rfl⟩
  · rw [encodeNumber_instr, encode_instr]
    exact frameOfNumber_word op.word
  · exact (frameOfNumber_access (.inr (.inl rfl)) (Laws.WordRange.rd off)).trans
      (congrArg _ (busOfNumber_fields off false 0#32))
  · exact (frameOfNumber_access (.inr (.inr rfl)) (Laws.WordRange.wr off d)).trans
      (congrArg _ (busOfNumber_fields off true d))

/-- A number decodes as the frame it stands for. -/
theorem decodeTableWord_of_frame {nbits n : Nat} {f : Frame} (h : frameOfNumber nbits n = some f) :
    decodeTableWord nbits n = (decode f).toOption := by
  rw [decodeTableWord, h]

/-- Settles O2: the number stands for the encoder's frame, and this decodes to the instruction. -/
theorem decodeOfNumberedForm : Obligations.DecodeOfNumberedForm := by
  intro i wf
  rw [decodeTableWord_of_frame (frameOfNumber_encodeNumber i), decodeOfEncode i wf]
  rfl

/-- A register write numbered without its data is one of data 0. -/
theorem decodeTableWord_wr_without_data {off : BitVec 6} (ha : offsetAligned off = true) :
    decodeTableWord 8 (off.toNat + 64) = some (.wr off 0#32) := by
  have hlt : off.toNat + 64 < 2 ^ 8 := by omega
  have hframe : frameOfNumber 8 (off.toNat + 64) = some (.bus (writeAccess off 0#32)) :=
    (frameOfNumber_access (.inr (.inl rfl)) hlt).trans (congrArg _ (busOfNumber_fields off true 0#32))
  rw [decodeTableWord_of_frame hframe, decode, decodeBus_writeAccess ha]
  rfl

/-- Settles O4: the words with a meaning are numbered forms, the write's without its data; METHOD = 5, a bit of [31:5] and a
misaligned offset are refused. -/
theorem writtenOutWordsDecode : Obligations.WrittenOutWordsDecode := by
  refine ⟨decodeOfNumberedForm .xorEnc rfl, decodeOfNumberedForm .swapDec rfl, decodeOfNumberedForm .mathEnc rfl,
    decodeOfNumberedForm .shufDec rfl, decodeOfNumberedForm (.rd 0x0C#6) rfl,
    decodeTableWord_wr_without_data (off := 0x10#6) rfl, ?method, ?highBit, ?misaligned⟩
  case method => decide
  case highBit => decide
  case misaligned => decide

end Sys2Proof

/-! ### A command that is not running (30_encoding.md R71, 40_sequencer.md R77) -/

namespace Sys2Proof.Machine

/-- A write to CMD is an access on the port that hands its word to the sequencer. -/
theorem exec_wr_cmd (w : Word) (s : State) :
    exec (.wr Reg.cmd.offset w) s = s.portAccess Reg.cmd.offset fun t => (t.writeCommand w).respond .done := by
  simp only [exec_wr, regAt_offset, State.writeReg_cmd]

/-- Settles O29: a command that is not running arrives at CMD as a write of its word does. -/
theorem commandArrivesAsItsWord : Obligations.CommandArrivesAsItsWord := by
  intro s op notRunning
  have arrives : ¬(s.status.busy = true ∧ s.op = op ∧ s.rst = false) :=
    fun ⟨busy, latched, _⟩ => notRunning ⟨busy, latched⟩
  calc exec op.instr s
    _ = s.command op (s.result op) := exec_instr op s
    _ = s.portAccess Reg.cmd.offset fun t => (t.writeCommand op.word).respond .done := State.command_arrives _ arrives
    _ = exec (.wr 0x08#6 op.word) s := (exec_wr_cmd op.word s).symm

end Sys2Proof.Machine

/-! ### The sequencer (40_sequencer.md) -/

namespace Sys2Proof.Machine

/-! #### The end of a running command (R83 to R85) -/

/-- A refused access of the access set ends the command with a bus error, answered or not (R84). -/
theorem State.finish_eq_busErrorEnd {s : State} {x : Word × AccessDir} {more : List (Word × AccessDir)}
    (refused : s.erring = x :: more) (r : List Byte) : s.finish r = s.busErrorEnd x more := by
  simp [State.finish, refused]

/-- Settles O46: the command's end is the bus error of its first erring access, and the recorded address is picked among them all. -/
theorem busErrorEndsTheCommand : Obligations.BusErrorEndsTheCommand := by
  intro s op busy latched hr refused
  obtain ⟨x, more, herring⟩ := List.exists_cons_of_ne_nil refused
  refine ⟨s.busErrorEnd x more, ?_, ?_, s.busErrorEnd_status x more, s.busErrorEnd_onlyDestChanged x more,
    s.busErrorEnd_sameOutside x more⟩
  · rw [exec_running busy latched hr, State.finish_eq_busErrorEnd herring]
  · rw [herring, State.busErrorEnd_errAddr]
    exact pickErring_mem _ x more

/-- A buffer without a row or without a column has no byte (R78). -/
theorem State.len_eq_zero {s : State} (h : s.height = 0#16 ∨ s.width = 0#16) : s.len = 0 := by
  rcases h with h | h <;> simp [State.len, State.pixels, h]

/-- The access set of a command on an empty buffer is empty (R53). -/
theorem State.inAccessSet_of_empty {s : State} (empty : s.len = 0) (x : Word × AccessDir) : s.inAccessSet x = false := by
  obtain ⟨a, dir⟩ := x
  cases dir <;> simp [State.inAccessSet, State.inSource, State.inDest, empty]

/-- No access of a command on an empty buffer is refused, because it makes none (R53, R68). -/
theorem State.erring_of_empty {s : State} (empty : s.len = 0) : s.erring = [] := by
  simp [State.erring, State.inAccessSet_of_empty empty]

/-- Nor does one stay unanswered (R53, R146). -/
theorem State.stalls_of_empty {s : State} (empty : s.len = 0) : s.stalls = false := by
  simp [State.stalls, State.inAccessSet_of_empty empty]

/-- Completion on an empty buffer stores no byte, disturbed or not. -/
theorem State.complete_mem_of_empty {s : State} (empty : s.len = 0) {r : List Byte} (hl : r.length = s.len) :
    (s.complete r).mem = s.mem := by
  have hnil : (if s.disturbed then freeBytes s.epoch s.len else r) = [] :=
    List.eq_nil_of_length_eq_zero (by split <;> simp [hl, empty])
  rw [State.complete_mem, hnil]
  rfl

/-- Settles O37: with an empty access set nothing is refused or waited for, so that the command completes, and it has no byte to store. -/
theorem emptyBufferCompletes : Obligations.EmptyBufferCompletes := by
  intro s op busy latched hr shape
  have empty := State.len_eq_zero shape
  refine ⟨s.complete (s.result op), ?_, State.complete_mem_of_empty empty (s.result_length op), ?_, ?_, s.complete_errAddr _⟩
  · rw [exec_running busy latched hr, State.finish_eq_complete (State.erring_of_empty empty) (State.stalls_of_empty empty)]
  all_goals rw [State.complete_status]

/-! #### Acceptance (R78 to R81) -/

/-- A write to CMD while IDLE, out of reset, hands its word to acceptance (R77, R78). -/
theorem exec_wr_cmd_idle {s : State} (idle : s.status.busy = false) (hr : s.rst = false) (w : Word) :
    exec (.wr 0x08#6 w) s = .next ((s.accept w).respond .done) := by
  rw [← State.writeCommand_idle idle]
  exact exec_wr_offset hr .cmd w

/-- What acceptance does with a word that passes, and with one that fails (R78). -/
theorem State.accept_of_ok {s : State} {w : Word} {op : Op} (h : s.check w = .ok op) :
    s.accept w = s.clearOutcome.start op := by
  rw [State.accept, State.clearOutcome_check, h]

theorem State.accept_of_error {s : State} {w : Word} {code : ErrCode} (h : s.check w = .error code) :
    s.accept w = s.clearOutcome.raiseError code := by
  rw [State.accept, State.clearOutcome_check, h]

/-- The check of an operation's word is that of its operands (R79). -/
theorem State.check_word_of_pass {s : State} {op : Op} (h : s.checkOperands op = .none) : s.check op.word = .ok op := by
  simp [State.check, h]

theorem State.check_word_of_fail {s : State} {op : Op} (h : s.checkOperands op ≠ .none) :
    s.check op.word = .error (s.checkOperands op) := by
  rw [State.check, decodeOp_word]
  dsimp only
  split
  · contradiction
  · rfl

/-- The check of a word that is no operation's (R79). -/
theorem State.check_of_invalid {s : State} {w : Word} {e : DecodeError} (h : decodeOp w = .error e) :
    s.check w = .error .invalidMethod := by
  rw [State.check, h]

/-- The words that decode, written out (R71). -/
theorem mem_commandWords_iff (w : Word) :
    w ∈ [0x01#32, 0x11#32, 0x02#32, 0x12#32, 0x03#32, 0x13#32, 0x04#32, 0x14#32] ↔ ∃ op : Op, decodeOp w = .ok op := by
  simp only [decodeOp_ok_iff, Op.exists_iff, List.mem_cons, List.not_mem_nil, or_false]
  rfl

/-- The two words whose METHOD is swap (R71). -/
theorem word_mem_swap_iff (op : Op) : op.word ∈ [0x02#32, 0x12#32] ↔ op.method = .swap := by
  obtain ⟨m, d⟩ := op
  cases m <;> cases d <;> decide

/-- The code that acceptance leaves is the first failing check of the operands, 0 if all pass (R78 to R81). -/
theorem State.accept_word_errCode (s : State) (op : Op) : (s.accept op.word).status.errCode = s.checkOperands op := by
  by_cases h : s.checkOperands op = .none
  · rw [State.accept_of_ok (State.check_word_of_pass h), h]
    rfl
  · rw [State.accept_of_error (State.check_word_of_fail h)]
    rfl

/-- The code of a word that is no operation's. -/
theorem State.accept_invalid_errCode {s : State} {w : Word} {e : DecodeError} (h : decodeOp w = .error e) :
    (s.accept w).status.errCode = .invalidMethod := by
  rw [State.accept_of_error (State.check_of_invalid h)]
  rfl

/-- After acceptance while IDLE a command runs exactly when the code is 0, and ERR is 1 exactly when it is not (R78, R80, R81). -/
theorem State.accept_flags {s : State} (idle : s.status.busy = false) (w : Word) :
    ((s.accept w).status.busy = true ↔ (s.accept w).status.errCode = .none) ∧
      ((s.accept w).status.err = true ↔ (s.accept w).status.errCode ≠ .none) := by
  rcases s.accept_cases w with ⟨op, -, -, starts⟩ | ⟨code, -, hcode, fails⟩
  · rw [starts]
    simp [State.clearOutcome]
  · rw [fails]
    simp [idle, hcode]

/-- Checks 2 to 5 of R79 on the registers' numbers, the swap commands named by their words. -/
theorem State.checkOperands_eq (s : State) (op : Op) :
    s.checkOperands op =
      if s.channels.toNat ≠ 3 then .shapeMismatch
      else if s.len > 0 ∧ (s.src + s.len > 2 ^ 32 ∨ s.dst + s.len > 2 ^ 32) then .addrRange
      else if s.len > 0 ∧ s.src < s.dst + s.len ∧ s.dst < s.src + s.len then .overlap
      else if op.word ∈ [0x02#32, 0x12#32] ∧ s.pixels > s.platform.permDepth.toNat then .capacity
      else .none := by
  have hchannels : s.channels ≠ 3#8 ↔ s.channels.toNat ≠ 3 := not_congr BitVec.toNat_inj.symm
  have hcapacity : (op.method = .swap ∧ ¬ s.pixels ≤ s.platform.permDepth.toNat) ↔
      (op.word ∈ [0x02#32, 0x12#32] ∧ s.pixels > s.platform.permDepth.toNat) :=
    and_congr (word_mem_swap_iff op).symm Nat.not_le
  exact if_congr hchannels rfl (if_congr Iff.rfl rfl (if_congr Iff.rfl rfl (if_congr hcapacity rfl rfl)))

/-- Settles O26: a word is an operation's, whose operands are checked in the table's order, or fails the first check. -/
theorem acceptanceChecksInOrder : Obligations.AcceptanceChecksInOrder := by
  intro s w idle hr
  refine ⟨(s.accept w).respond .done, exec_wr_cmd_idle idle hr w, ?_, State.accept_flags idle w⟩
  rw [State.respond_status]
  cases h : decodeOp w with
  | error e =>
    have invalid : ¬ ∃ op : Op, decodeOp w = .ok op := by simp [h]
    rw [if_pos (mt (mem_commandWords_iff w).1 invalid), State.accept_invalid_errCode h]
  | ok op =>
    rw [if_neg (not_not_intro ((mem_commandWords_iff w).2 ⟨op, h⟩)), decodeOp_ok_iff.1 h, State.accept_word_errCode,
      State.checkOperands_eq]
    rfl

/-- Settles O27: the word of an operation whose operands pass starts it. -/
theorem acceptedCommandStarts : Obligations.AcceptedCommandStarts := by
  intro s op idle hr passes
  rw [exec_wr_cmd_idle idle hr, State.accept_of_ok (State.check_word_of_pass passes)]
  rfl

/-- Settles O28: a failing check raises its code on the cleared outcome, and the block stays IDLE. -/
theorem rejectionIsPrecise : Obligations.RejectionIsPrecise := by
  intro s w code idle hr fails
  have raised : s.clearOutcome.raiseError code =
      { s with status := { busy := s.status.busy, done := false, err := true, ign := s.status.ign, errCode := code } } := rfl
  rw [exec_wr_cmd_idle idle hr, State.accept_of_error fails, raised, idle]
  rfl

/-! #### The host's moves (R74 to R77, R89) -/

/-- What a step answers for its next move. -/
def Move.outcome : Move → Host.Outcome State Fault Refusal
  | .run i s => exec i s
  | .effect s => .next s
  | .fault f => .fault f
  | .refuse r => .refused r

theorem step_eq_outcome (s : State) : step s = s.nextMove.outcome := by
  unfold step
  cases s.nextMove <;> rfl

/-! The step of each scheduled move of the host. -/

theorem step_bus {s : State} {page : BitVec 26} {a : BusAccess} {rest : List Event} (h : s.schedule = .bus page a :: rest) :
    step s = ((s.withSchedule rest).busMove page a).outcome := by
  simp [step_eq_outcome, State.nextMove, h]

theorem step_host {s : State} {rest : List Event} (h : s.schedule = .host :: rest) :
    step s = (s.withSchedule rest).hostMove.outcome := by
  simp [step_eq_outcome, State.nextMove, h]

theorem step_memWrite {s : State} {addr : Word} {v : Byte} {rest : List Event} (h : s.schedule = .memWrite addr v :: rest) :
    step s = .next ((s.withSchedule rest).hostWrite addr v) := by
  simp [step_eq_outcome, State.nextMove, Move.outcome, h]

theorem step_memRead {s : State} {addr : Word} {rest : List Event} (h : s.schedule = .memRead addr :: rest) :
    step s = .next ((s.withSchedule rest).hostRead addr) := by
  simp [step_eq_outcome, State.nextMove, Move.outcome, h]

/-- A transaction on the block's window that decodes runs as its instruction (R69, R76, R77). -/
theorem State.busMove_ok {s : State} {a : BusAccess} {i : Instr} (hr : s.rst = false) (hd : decodeBus a = .ok i) :
    s.busMove s.platform.regPage a = .run i s := by
  simp [State.busMove, hr, hd]

/-! The move of each statement of the host's program (R74, R75). -/

theorem State.hostMove_wr {s : State} {r : Reg} {d : Word} {p : List HostStmt} (hr : s.rst = false)
    (h : s.program = .wr r d :: p) : s.hostMove = .run (.wr r.offset d) (s.withProgram p) := by
  rw [State.hostMove, h]
  exact State.busMove_ok (s := s.withProgram p) hr (decodeBus_writeAccess (offsetAligned_offset r) d)

theorem State.hostMove_rd {s : State} {r : Reg} {p : List HostStmt} (hr : s.rst = false)
    (h : s.program = .rd r :: p) : s.hostMove = .run (.rd r.offset) (s.withProgram p) := by
  rw [State.hostMove, h]
  exact State.busMove_ok (s := s.withProgram p) hr (decodeBus_readAccess (offsetAligned_offset r))

theorem State.hostMove_mw {s : State} {addr : Word} {v : Byte} {p : List HostStmt} (h : s.program = .mw addr v :: p) :
    s.hostMove = .effect ((s.withProgram p).hostWrite addr v) := by
  rw [State.hostMove, h]

theorem State.hostMove_mr {s : State} {addr : Word} {p : List HostStmt} (h : s.program = .mr addr :: p) :
    s.hostMove = .effect ((s.withProgram p).hostRead addr) := by
  rw [State.hostMove, h]

theorem State.hostMove_waitIdle {s : State} {p : List HostStmt} (hr : s.rst = false) (h : s.program = .waitIdle :: p) :
    s.hostMove = .effect ((s.respond (.data s.status.word)).withProgram
      (if s.status.word.getLsbD 0 then .waitIdle :: p else p)) := by
  have hmove : s.hostMove = s.pollIdle := by rw [State.hostMove, h]
  simp [hmove, State.pollIdle_eq, hr, h]

theorem State.hostMove_done {s : State} (h : s.program = []) : s.hostMove = .effect s := by
  rw [State.hostMove, h]

/-- Settles O5: the step's move is that of the scheduled transaction, or of the host's next statement. -/
theorem stepRunsTheDecodedTransaction : Obligations.StepRunsTheDecodedTransaction := by
  refine ⟨?transaction, ?registerStatements, ?otherStatements⟩
  case transaction =>
    intro s page a rest i hs hpage hr hd
    subst hpage
    have hmove : (s.withSchedule rest).busMove s.platform.regPage a = .run i (s.withSchedule rest) :=
      State.busMove_ok (s := s.withSchedule rest) hr hd
    rw [step_bus hs, hmove]
    rfl
  case registerStatements =>
    intro s rest p hs hr
    refine ⟨fun r d hp => ?_, fun r hp => ?_, fun hp => ?_⟩ <;> rw [step_host hs]
    · rw [State.hostMove_wr (s := s.withSchedule rest) hr hp]
      rfl
    · rw [State.hostMove_rd (s := s.withSchedule rest) hr hp]
      rfl
    · rw [State.hostMove_waitIdle (s := s.withSchedule rest) hr hp]
      rfl
  case otherStatements =>
    intro s rest p hs
    refine ⟨fun addr v hp => ?_, fun addr hp => ?_, fun hp => ?_⟩ <;> rw [step_host hs]
    · rw [State.hostMove_mw (s := s.withSchedule rest) hp]
      rfl
    · rw [State.hostMove_mr (s := s.withSchedule rest) hp]
      rfl
    · rw [State.hostMove_done (s := s.withSchedule rest) hp]
      rfl

/-- Settles O50: the byte is stored at its own address and at no other, and nothing but the memory and the disturbance is touched. -/
theorem hostMemoryWrite : Obligations.HostMemoryWrite := by
  intro s addr v rest hinv hs
  exact ⟨(s.withSchedule rest).hostWrite addr v, step_memWrite hs, Memory.read_write_same hinv.memory _ v,
    fun a ha => Memory.read_write_other s.mem ha v, rfl, rfl⟩

/-- Settles O51: only of a destination byte of a running command is the value free. -/
theorem hostMemoryRead : Obligations.HostMemoryRead := by
  intro s addr rest hs
  refine ⟨(s.withSchedule rest).hostRead addr, step_memRead hs, ?_⟩
  rcases (s.withSchedule rest).hostRead_cases addr with ⟨busy, inDest, eq⟩ | ⟨-, eq⟩
  · rw [eq]
    refine ⟨fun known => ?_, rfl⟩
    rcases known with idle | outside
    · exact nomatch idle.symm.trans busy
    · exact nomatch outside.symm.trans inDest
  · rw [eq]
    exact ⟨fun _ => rfl, rfl⟩

/-! #### Register reads (R76) -/

theorem exec_rd_offset {s : State} (hr : s.rst = false) (r : Reg) :
    exec (.rd r.offset) s = .next (s.respond (.data (s.readReg r))) :=
  exec_rd_at hr (offsetAligned_offset r) (regAt_offset r)

/-- Settles O16: each offset is that of its register. -/
theorem readReturnsTheRegister : Obligations.ReadReturnsTheRegister := by
  intro s hr
  have read := exec_rd_offset hr
  exact ⟨read .id, read .caps, read .cmd, read .status, read .key, read .srcBase, read .dstBase, read .height, read .width,
    read .channels, read .irqEn, read .errAddr⟩

end Sys2Proof.Machine

/-! ### The PRNG (41_prng.md) -/

namespace Sys2Proof.Machine

/-! #### The reseeder (R92) -/

/-- Every word of the seeded run comes from the word before it; `prev` stands before the first. -/
theorem getD_seedWords_succ {count j : Nat} (h : j < count) (i : Nat) (prev : Word) :
    (prev :: seedWords count i prev).getD (j + 1) 0 =
      1812433253#32 * ((prev :: seedWords count i prev).getD j 0 ^^^ ((prev :: seedWords count i prev).getD j 0 >>> 30)) +
        BitVec.ofNat 32 (j + i) := by
  induction count generalizing i j prev with
  | zero => omega
  | succ count ih =>
    rw [List.getD_cons_succ, seedWords_succ]
    cases j with
    | zero =>
      rw [Nat.zero_add]
      rfl
    | succ j => rw [ih (by omega), List.getD_cons_succ, Nat.succ_add_eq_add_succ]

theorem getD_reseed_succ (seed : Word) {j : Nat} (h : j < 623) :
    (reseed seed).mt.getD (j + 1) 0 =
      1812433253#32 * ((reseed seed).mt.getD j 0 ^^^ ((reseed seed).mt.getD j 0 >>> 30)) + BitVec.ofNat 32 (j + 1) :=
  getD_seedWords_succ h 1 seed

/-- Settles O54: entry `i` of the block is word `i - 1` of the seeded run. -/
theorem reseedFillsTheBlock : Obligations.ReseedFillsTheBlock := by
  intro seed
  refine ⟨reseed_mti seed, reseed_length seed, rfl, fun i hi hle => ?_⟩
  obtain ⟨j, rfl⟩ : ∃ j, i = j + 1 := ⟨i - 1, by omega⟩
  rw [getD_reseed_succ seed (by omega), Nat.add_sub_cancel, BitVec.toNat_add, BitVec.toNat_mul, BitVec.toNat_ofNat,
    BitVec.toNat_ofNat]
  omega

/-! #### The regeneration of the block (R93) -/

/-- The block `new` is the regeneration of `old`: an entry reads the old block where the in-place loop has not been yet, and
the new one where it has. -/
def Regenerates (old new : List Word) : Prop :=
  new.length = 624 ∧ ∀ i, i < 624 → new.getD i 0 =
    twistWord (old.getD i 0) (if i + 1 < 624 then old.getD (i + 1) 0 else new.getD 0 0)
      (if i + 397 < 624 then old.getD (i + 397) 0 else new.getD (i - 227) 0)

/-- Every entry is determined by the old block and by new entries before it. -/
theorem Regenerates.unique {old new new' : List Word} (h : Regenerates old new) (h' : Regenerates old new') : new = new' := by
  obtain ⟨hlen, hnew⟩ := h
  obtain ⟨hlen', hnew'⟩ := h'
  have agree (i : Nat) : i < 624 → new.getD i 0 = new'.getD i 0 := by
    induction i using Nat.strong_induction_on with
    | _ i ih =>
      intro hi
      rw [hnew i hi, hnew' i hi]
      congr 1
      · split
        · rfl
        · exact ih 0 (by omega) (by omega)
      · split
        · rfl
        · exact ih (i - 227) (by omega) (by omega)
  refine List.ext_getElem (hlen.trans hlen'.symm) fun i hi hi' => ?_
  rw [← List.getD_eq_getElem _ 0 hi, ← List.getD_eq_getElem _ 0 hi', agree i (hlen ▸ hi)]

theorem getD_set_ne {l : List Word} {i j : Nat} (h : i ≠ j) (x : Word) : (l.set i x).getD j 0 = l.getD j 0 := by
  simp [List.getD_eq_getElem?_getD, List.getElem?_set_ne h]

theorem getD_set_self {l : List Word} {i : Nat} (h : i < l.length) (x : Word) : (l.set i x).getD i 0 = x := by
  simp [List.getD_eq_getElem?_getD, h]

/-- The loop from entry `k` on does not touch the entries before it. -/
theorem getD_twistInPlace_of_lt {i k : Nat} (h : i < k) (count : Nat) (mt : List Word) :
    (twistInPlace count k mt).getD i 0 = mt.getD i 0 := by
  induction count generalizing k mt with
  | zero => rfl
  | succ count ih => rw [twistInPlace, ih (by omega), getD_set_ne (by omega)]

/-- What the loop from entry `k` to the last leaves in entry `i`. -/
theorem getD_twistInPlace {count k i : Nat} {mt : List Word} (hlen : mt.length = 624) (hk : k + count = 624) (hki : k ≤ i)
    (hi : i < 624) :
    (twistInPlace count k mt).getD i 0 =
      twistWord (mt.getD i 0) (if i + 1 < 624 then mt.getD (i + 1) 0 else (twistInPlace count k mt).getD 0 0)
        (if i + 397 < 624 then mt.getD (i + 397) 0 else (twistInPlace count k mt).getD (i - 227) 0) := by
  induction count generalizing k mt with
  | zero => omega
  | succ count ih =>
    rw [twistInPlace]
    rcases hki.eq_or_lt with rfl | hlt
    · rw [getD_twistInPlace_of_lt (by omega), getD_set_self (by omega)]
      congr 1
      · split
        · rw [Nat.mod_eq_of_lt (by assumption)]
        · rw [getD_twistInPlace_of_lt (by omega), getD_set_ne (by omega), show (k + 1) % 624 = 0 by omega]
      · split
        · rw [Nat.mod_eq_of_lt (by assumption)]
        · rw [getD_twistInPlace_of_lt (by omega), getD_set_ne (by omega), show (k + 397) % 624 = k - 227 by omega]
    · rw [ih (by rw [List.length_set, hlen]) (by omega) hlt, getD_set_ne (by omega), getD_set_ne (by omega),
        getD_set_ne (by omega)]

theorem twistInPlace_regenerates {mt : List Word} (hlen : mt.length = 624) : Regenerates mt (twistInPlace 624 0 mt) :=
  ⟨by rw [twistInPlace_length, hlen], fun i hi => getD_twistInPlace hlen rfl (Nat.zero_le i) hi⟩

theorem getD_twistRun {as bs cs : List Word} {i : Nat} (ha : i < as.length) (hb : i < bs.length) (hc : i < cs.length) :
    (twistRun as bs cs).getD i 0 = twistWord (as.getD i 0) (bs.getD i 0) (cs.getD i 0) := by
  simp [twistRun_eq, List.getD_eq_getElem?_getD, ha, hb, hc]

theorem getD_drop (l : List Word) (k i : Nat) : (l.drop k).getD i 0 = l.getD (k + i) 0 := by
  simp [List.getD_eq_getElem?_getD]

/-! The runs of `twist`: entries 0..226, 227..453 and 454..622 of the new block. -/

def twistHead (mt : List Word) : List Word := twistRun mt (mt.drop 1) (mt.drop 397)

def twistMiddle (mt : List Word) : List Word := twistRun (mt.drop 227) (mt.drop 228) (twistHead mt)

def twistTail (mt : List Word) : List Word := twistRun (mt.drop 454) (mt.drop 455) (twistMiddle mt)

theorem twist_eq (mt : List Word) :
    twist mt = twistHead mt ++ twistMiddle mt ++ twistTail mt ++
      [twistWord (mt.getD 623 0) ((twistHead mt).getD 0 0) ((twistMiddle mt).getD 169 0)] := rfl

section
variable {mt : List Word} (hlen : mt.length = 624)
include hlen

theorem twistHead_length : (twistHead mt).length = 227 := by
  simp [twistHead, hlen]

theorem twistMiddle_length : (twistMiddle mt).length = 227 := by
  simp [twistMiddle, twistHead_length hlen, hlen]

theorem twistTail_length : (twistTail mt).length = 169 := by
  simp [twistTail, twistMiddle_length hlen, hlen]

theorem getD_twist_head {i : Nat} (h : i < 227) : (twist mt).getD i 0 = (twistHead mt).getD i 0 := by
  have hhead := twistHead_length hlen
  rw [twist_eq, List.append_assoc, List.append_assoc, List.getD_append _ _ _ _ (by omega)]

theorem getD_twist_middle {i : Nat} (h : i < 227) : (twist mt).getD (227 + i) 0 = (twistMiddle mt).getD i 0 := by
  have hhead := twistHead_length hlen
  have hmiddle := twistMiddle_length hlen
  rw [twist_eq, List.append_assoc, List.append_assoc, List.getD_append_right _ _ _ _ (by omega),
    List.getD_append _ _ _ _ (by omega), hhead, Nat.add_sub_cancel_left]

theorem getD_twist_tail {i : Nat} (h : i < 169) : (twist mt).getD (454 + i) 0 = (twistTail mt).getD i 0 := by
  have hfront : (twistHead mt ++ twistMiddle mt).length = 454 := by
    rw [List.length_append, twistHead_length hlen, twistMiddle_length hlen]
  have htail := twistTail_length hlen
  rw [twist_eq, List.append_assoc, List.getD_append_right _ _ _ _ (by omega), List.getD_append _ _ _ _ (by omega), hfront,
    Nat.add_sub_cancel_left]

theorem getD_twist_last :
    (twist mt).getD 623 0 = twistWord (mt.getD 623 0) ((twistHead mt).getD 0 0) ((twistMiddle mt).getD 169 0) := by
  have hfront : (twistHead mt ++ twistMiddle mt ++ twistTail mt).length = 623 := by
    simp [twistHead_length hlen, twistMiddle_length hlen, twistTail_length hlen]
  rw [twist_eq, List.getD_append_right _ _ _ _ hfront.le, hfront]
  rfl

/-- Each run reads the old block and, where the loop has been already, the run before it. -/
theorem twist_regenerates : Regenerates mt (twist mt) := by
  refine ⟨twist_length hlen, fun i hi => ?_⟩
  have hhead := twistHead_length hlen
  have hmiddle := twistMiddle_length hlen
  rcases (by omega : i < 227 ∨ 227 ≤ i ∧ i < 454 ∨ 454 ≤ i ∧ i < 623 ∨ i = 623) with h | ⟨h, h'⟩ | ⟨h, h'⟩ | rfl
  · rw [getD_twist_head hlen h, twistHead, getD_twistRun (by omega) (by simp; omega) (by simp; omega), getD_drop, getD_drop,
      if_pos (by omega), if_pos (by omega), Nat.add_comm 1, Nat.add_comm 397]
  · obtain ⟨j, rfl⟩ := Nat.exists_eq_add_of_le h
    rw [getD_twist_middle hlen (by omega), twistMiddle,
      getD_twistRun (by simp; omega) (by simp; omega) (by omega), getD_drop, getD_drop, if_pos (by omega), if_neg (by omega),
      Nat.add_sub_cancel_left, getD_twist_head hlen (by omega), Nat.add_right_comm 227 j 1]
  · obtain ⟨j, rfl⟩ := Nat.exists_eq_add_of_le h
    have hback : 454 + j - 227 = 227 + j := by omega
    rw [getD_twist_tail hlen (by omega), twistTail,
      getD_twistRun (by simp; omega) (by simp; omega) (by omega), getD_drop, getD_drop, if_pos (by omega), if_neg (by omega),
      hback, getD_twist_middle hlen (by omega), Nat.add_right_comm 454 j 1]
  · rw [getD_twist_last hlen, if_neg (by decide), if_neg (by decide), getD_twist_head hlen (by decide)]
    exact congrArg _ (getD_twist_middle hlen (i := 169) (by decide)).symm

theorem twist_eq_twistInPlace : twist mt = twistInPlace 624 0 mt :=
  (twist_regenerates hlen).unique (twistInPlace_regenerates hlen)

end

/-- One turn of the in-place loop (R93). -/
def twistTurn (mt : List Word) (k : Nat) : List Word :=
  mt.set k (twistWord (mt.getD k 0) (mt.getD ((k + 1) % 624) 0) (mt.getD ((k + 397) % 624) 0))

theorem twistInPlace_eq_foldl (count k : Nat) (mt : List Word) :
    twistInPlace count k mt = (List.range' k count).foldl twistTurn mt := by
  induction count generalizing k mt with
  | zero => rfl
  | succ count ih => rw [twistInPlace, ih, List.range'_succ, List.foldl_cons, twistTurn]

/-- The state that `Next32` reads, with the block regenerated by the rule's loop. -/
theorem refill_eq_foldl {g : Prng} (hlen : g.mt.length = 624) :
    refill g = if g.mti = 624 then { mt := (List.range 624).foldl twistTurn g.mt, mti := 0 } else g := by
  rw [refill, twist_eq_twistInPlace hlen, twistInPlace_eq_foldl, List.range_eq_range']

/-- Settles O55: both blocks are the regeneration of the same block, and `Next32` reads it. -/
theorem twistIsTheInPlaceLoop : Obligations.TwistIsTheInPlaceLoop := by
  refine ⟨fun mt hlen => twist_eq_twistInPlace hlen, fun g hlen _ => ?_⟩
  unfold next32
  rw [refill_eq_foldl hlen]
  rfl

/-! #### `Mask` (R94) -/

/-- Bit `i` of `m` is set where one of the `s` bits of `v` from `i` upwards is. -/
def Smeared (v : Word) (s : Nat) (m : Word) : Prop :=
  ∀ i, m.getLsbD i = true ↔ ∃ j, i ≤ j ∧ j < i + s ∧ v.getLsbD j = true

theorem smeared_one (v : Word) : Smeared v 1 v := fun i =>
  ⟨fun h => ⟨i, le_rfl, i.lt_succ_self, h⟩, fun ⟨j, hij, hji, h⟩ => by
    obtain rfl : j = i := by omega
    exact h⟩

/-- One turn of the smearing doubles the reach of a bit. -/
theorem Smeared.double {v m : Word} {s : Nat} (h : Smeared v s m) : Smeared v (2 * s) (m ||| (m >>> s)) := by
  intro i
  rw [BitVec.getLsbD_or, BitVec.getLsbD_ushiftRight, Bool.or_eq_true, h i, h (s + i)]
  constructor
  · rintro (⟨j, hij, hj, hv⟩ | ⟨j, hij, hj, hv⟩) <;> exact ⟨j, by omega, by omega, hv⟩
  · rintro ⟨j, hij, hj, hv⟩
    rcases Nat.lt_or_ge j (i + s) with hlt | hge
    · exact .inl ⟨j, hij, hlt, hv⟩
    · exact .inr ⟨j, by omega, by omega, hv⟩

theorem maskOf_smeared (v : Word) : Smeared v 32 (maskOf v) :=
  (smeared_one v).double.double.double.double.double

/-- The mask has a bit at `i` exactly when the value has one there or above. -/
theorem getLsbD_maskOf (v : Word) (i : Nat) : (maskOf v).getLsbD i = true ↔ 2 ^ i ≤ v.toNat := by
  rw [maskOf_smeared v i]
  constructor
  · rintro ⟨j, hij, -, hv⟩
    exact (Nat.pow_le_pow_right two_pos hij).trans (Nat.ge_two_pow_of_testBit hv)
  · intro h
    obtain ⟨j, hij, hv⟩ := Nat.exists_ge_and_testBit_of_ge_two_pow h
    have hj : j < 32 := BitVec.lt_of_getLsbD hv
    exact ⟨j, hij, by omega, hv⟩

/-- The mask of a value with `b` bits is 2^b - 1. -/
theorem maskOf_toNat (v : Word) : (maskOf v).toNat = 2 ^ v.toNat.size - 1 := by
  refine Nat.eq_of_testBit_eq fun i => Bool.eq_iff_iff.2 ?_
  rw [Nat.testBit_two_pow_sub_one, decide_eq_true_iff, Nat.lt_size]
  exact getLsbD_maskOf v i

/-- Settles O56: the value's size is the least number of bits that hold it. -/
theorem maskIsSmallest : Obligations.MaskIsSmallest := by
  intro v
  have hv := Nat.lt_size_self v.toNat
  refine ⟨?atLeast, ⟨v.toNat.size, Nat.size_le.2 v.isLt, maskOf_toNat v⟩, fun b hb => ?smallest⟩
  case atLeast =>
    rw [BitVec.le_def, maskOf_toNat]
    omega
  case smallest =>
    have hpos : 0 < 2 ^ b := Nat.two_pow_pos b
    have hsize : v.toNat.size ≤ b := Nat.size_le.2 (by omega)
    rw [maskOf_toNat]
    exact Nat.sub_le_sub_right (Nat.pow_le_pow_right two_pos hsize) 1

/-! #### The masked-rejection draws (R95, R96) -/

/-- The draw is the first accepted masked word, and every word up to it is consumed. -/
theorem drawMasked_eq_of_first {k limit : Nat} {mask max : Word} {g : Prng} (hk : k < limit)
    (rejected : ∀ j, j < k → max < wordAt g j &&& mask) (accepted : wordAt g k &&& mask ≤ max) :
    drawMasked limit mask max g = (wordAt g k &&& mask, (fun h : Prng => (next32 h).2)^[k + 1] g) := by
  induction k generalizing limit g with
  | zero =>
    obtain ⟨limit, rfl⟩ := Nat.exists_eq_add_one_of_ne_zero (Nat.ne_zero_of_lt hk)
    rw [drawMasked_succ]
    exact if_pos accepted
  | succ k ih =>
    obtain ⟨limit, rfl⟩ := Nat.exists_eq_add_one_of_ne_zero (Nat.ne_zero_of_lt hk)
    have hfirst : ¬ (next32 g).1 &&& mask ≤ max := BitVec.not_le.2 (rejected 0 k.succ_pos)
    rw [drawMasked_succ, if_neg hfirst]
    exact ih (g := (next32 g).2) (by omega) (fun j hj => rejected (j + 1) (by omega)) accepted

@[simp] theorem interval_zero (g : Prng) : interval 0#32 g = (0#32, g) := rfl

theorem interval_of_ne_zero {max : Word} (h : max ≠ 0#32) (g : Prng) :
    interval max g = drawMasked drawLimit (maskOf max) max g := if_neg h

theorem interval_eq_of_first {max : Word} {g : Prng} {k : Nat} (h : max ≠ 0#32) (hk : k < drawLimit)
    (rejected : ∀ j, j < k → max < wordAt g j &&& maskOf max) (accepted : wordAt g k &&& maskOf max ≤ max) :
    interval max g = (wordAt g k &&& maskOf max, (fun h : Prng => (next32 h).2)^[k + 1] g) := by
  rw [interval_of_ne_zero h, drawMasked_eq_of_first hk rejected accepted]

/-- Where the mask is `max` itself, one word is drawn and no word is rejected. -/
theorem interval_of_maskOf_self {max : Word} (h : max ≠ 0#32) (hmask : maskOf max = max) (g : Prng) :
    interval max g = ((next32 g).1 &&& max, (next32 g).2) := by
  have accepted : wordAt g 0 &&& maskOf max ≤ max := by
    rw [hmask, BitVec.le_def, BitVec.toNat_and]
    exact Nat.and_le_right
  rw [interval_eq_of_first h (by decide) (fun j hj => absurd hj j.not_lt_zero) accepted, hmask]
  rfl

/-- Settles O57: the rejection loop, entered where the maximum is not 0. -/
theorem intervalIsInRange : Obligations.IntervalIsInRange :=
  fun max g => ⟨interval_le max g, interval_zero g, fun _ h hk rejected accepted => interval_eq_of_first h hk rejected accepted⟩

/-- `Bounded(lo, hi)` is `lo` and a draw of `Interval(hi - lo - 1)`. -/
theorem bounded_eq_interval {lo hi : Int} {rng : Word} (hrng : (rng.toNat : Int) = hi - lo - 1) (g : Prng) :
    bounded lo hi g = (lo + ((interval rng g).1.toNat : Int), (interval rng g).2) := by
  have hword : BitVec.ofInt 32 (hi - lo - 1) = rng := by
    rw [← hrng, BitVec.ofInt_natCast, BitVec.ofNat_toNat, BitVec.setWidth_eq]
  unfold bounded
  rw [hword]
  by_cases h : rng = 0#32
  · simp [h]
  · rw [if_neg h, interval_of_ne_zero h]

/-- The range of every two bounds that R96 admits is a word. -/
theorem exists_toNat_eq_sub {lo hi : Int} (hlt : lo < hi) (hle : hi - lo ≤ 2 ^ 32 - 1) :
    ∃ rng : Word, (rng.toNat : Int) = hi - lo - 1 :=
  ⟨BitVec.ofNat 32 (hi - lo - 1).toNat, by rw [BitVec.toNat_ofNat]; omega⟩

theorem bounded_mem {lo hi : Int} (hlt : lo < hi) (hle : hi - lo ≤ 2 ^ 32 - 1) (g : Prng) :
    lo ≤ (bounded lo hi g).1 ∧ (bounded lo hi g).1 < hi := by
  obtain ⟨rng, hrng⟩ := exists_toNat_eq_sub hlt hle
  have hdraw := BitVec.le_def.1 (interval_le rng g)
  rw [bounded_eq_interval hrng]
  dsimp only
  omega

theorem bounded_of_sub_eq_one {lo hi : Int} (h : hi - lo = 1) (g : Prng) : bounded lo hi g = (lo, g) := by
  rw [bounded_eq_interval (rng := 0#32) (by simp [h]), interval_zero]
  simp

theorem bounded_eq_of_first {lo hi : Int} {rng : Word} {g : Prng} {k : Nat} (hrng : (rng.toNat : Int) = hi - lo - 1)
    (h : rng ≠ 0#32) (hk : k < drawLimit) (rejected : ∀ j, j < k → rng < wordAt g j &&& maskOf rng)
    (accepted : wordAt g k &&& maskOf rng ≤ rng) :
    bounded lo hi g = (lo + ((wordAt g k &&& maskOf rng).toNat : Int), (fun h : Prng => (next32 h).2)^[k + 1] g) := by
  rw [bounded_eq_interval hrng, interval_eq_of_first h hk rejected accepted]

/-- `Bounded(0, 256)` rejects no word, and keeps its low byte (R103). -/
theorem bounded_byte (g : Prng) : bounded 0 256 g = ((((next32 g).1.setWidth 8).toNat : Int), (next32 g).2) := by
  have hlow : ((next32 g).1 &&& 255#32).toNat = ((next32 g).1.setWidth 8).toNat := by
    rw [BitVec.toNat_and, BitVec.toNat_setWidth]
    exact Nat.and_two_pow_sub_one_eq_mod _ 8
  rw [bounded_eq_interval (rng := 255#32) (by decide), interval_of_maskOf_self (by decide) (by decide), hlow, Int.zero_add]

/-- Noise value `a` is drawn after the `a` values before it (R123). -/
theorem getD_drawNoise {n a : Nat} (h : a < n) (g : Prng) :
    (drawNoise n g).1.getD a 0 = (bounded (-50) 50 ((fun h : Prng => (bounded (-50) 50 h).2)^[a] g)).1 := by
  induction n generalizing a g with
  | zero => omega
  | succ n ih =>
    cases a with
    | zero => rfl
    | succ a => exact ih (a := a) (by omega) (bounded (-50) 50 g).2

/-- Settles O58: R96 in general, its two uses, and the noise values. -/
theorem boundedDraws : Obligations.BoundedDraws := by
  refine ⟨fun lo hi g hlt hle => ?general, fun g => ?uses, fun n a g h => getD_drawNoise h g⟩
  case general =>
    obtain ⟨hlo, hhi⟩ := bounded_mem hlt hle g
    exact ⟨hlo, hhi, fun h => bounded_of_sub_eq_one h g,
      fun _ _ hrng h hk rejected accepted => bounded_eq_of_first hrng h hk rejected accepted⟩
  case uses =>
    obtain ⟨hlo, hhi⟩ := bounded_mem (lo := -50) (hi := 50) (by decide) (by decide) g
    refine ⟨bounded_byte g, hlo, by omega, fun k hk rejected accepted => ?_⟩
    have hmask : maskOf 99#32 = 0x7F#32 := by decide
    rw [← hmask] at rejected accepted ⊢
    rw [bounded_eq_of_first (rng := 99#32) (by decide) (by decide) hk rejected accepted, Int.add_comm]
    rfl

/-! #### The downward shuffle (R97) -/

/-- The turn of R97's loop for entry `i`. -/
def shuffleTurn (i : Nat) (s : List Nat × Prng) : List Nat × Prng :=
  (swapEntries s.1 i (interval (BitVec.ofNat 32 i) s.2).1.toNat, (interval (BitVec.ofNat 32 i) s.2).2)

theorem shuffleFrom_eq_foldl (i : Nat) (p : List Nat) (g : Prng) :
    shuffleFrom i p g = (List.range i).foldl (fun s c => shuffleTurn (i - c) s) (p, g) := by
  induction i generalizing p g with
  | zero => rfl
  | succ i ih =>
    rw [shuffleFrom_succ, ih, List.range_succ_eq_map, List.foldl_cons, List.foldl_map]
    simp only [Nat.succ_eq_add_one, Nat.add_sub_add_right, Nat.sub_zero, shuffleTurn]

theorem shuffleIdentity_of_le_one {n : Nat} (h : n ≤ 1) (g : Prng) : (shuffleIdentity n g).2 = g := by
  rw [shuffleIdentity, Nat.sub_eq_zero_of_le h]
  rfl

/-- The one turn for n = 2: entry 1 stays where the word drawn is odd, and is exchanged with entry 0 where it is even. -/
theorem shuffleIdentity_two (g : Prng) :
    shuffleIdentity 2 g = (if (next32 g).1.getLsbD 0 then [0, 1] else [1, 0], (next32 g).2) := by
  have hturn : shuffleIdentity 2 g = shuffleTurn 1 ([0, 1], g) := rfl
  have hdraw := interval_of_maskOf_self (max := 1#32) (by decide) (by decide) g
  have hodd : ((next32 g).1 &&& 1#32).toNat = ((next32 g).1.getLsbD 0).toNat := by
    rw [BitVec.toNat_and, BitVec.getLsbD, Nat.toNat_testBit, Nat.pow_zero, Nat.div_one]
    exact Nat.and_one_is_mod _
  rw [hturn, shuffleTurn, hdraw, hodd]
  cases (next32 g).1.getLsbD 0 <;> rfl

/-- Settles O59: the recursion over the entries is the rule's loop, whose every turn exchanges two entries. -/
theorem shuffleIdentityIsAPermutation : Obligations.ShuffleIdentityIsAPermutation :=
  ⟨fun n g _ => ⟨shuffleIdentity_perm n g, fun h => shuffleIdentity_of_le_one h g, shuffleFrom_eq_foldl (n - 1) (List.range n) g⟩,
    shuffleIdentity_two⟩

end Sys2Proof.Machine

/-! ### The XOR combiner (42_xor.md) -/

namespace Sys2Proof.Machine

/-! #### What a completed command leaves at its destination, and what reads it back (R17, R83) -/

/-- Completion keeps DST_BASE, so that the completed state's destination samples are the run's results. -/
theorem State.CompletedAs.destAt {s t : State} {f : Nat → Byte} (done : s.CompletedAs f t) {a : Nat} (ha : a < s.len) :
    t.destAt a = f a := by
  rw [State.destAt, State.dst, done.outside.dstBase]
  exact done.result a ha

theorem State.SameOutside.len {s t : State} (h : s.SameOutside t) : t.len = s.len := by
  rw [State.len, State.len, State.pixels, State.pixels, h.height, h.width]

theorem State.ReadsBack.len {u v : State} (h : u.ReadsBack v) : v.len = u.len := by
  rw [State.len, State.len, State.pixels, State.pixels, h.height, h.width]

/-- A run that reads back a completed one has the same LEN, the same KEY and, as its source, the completed run's result. -/
theorem State.CompletedAs.readBack {u t v : State} {f : Nat → Byte} (done : u.CompletedAs f t) (reads : t.ReadsBack v) :
    v.len = u.len ∧ v.key = u.key ∧ ∀ a : Nat, a < u.len → v.sourceAt a = f a := by
  refine ⟨reads.len.trans done.outside.len, reads.key.trans done.outside.key, fun a ha => ?_⟩
  rw [reads.source a (by rwa [done.outside.len]), done.destAt ha]

/-! #### The commands (R102 to R105) -/

/-- Byte `a` of the XOR stream that KEY selects: the low byte of word `a` after Reseed(KEY) (R102). -/
def State.xorByte (s : State) (a : Nat) : Byte := (wordAt (reseed s.key) a).setWidth 8

/-- The two directions have one result: each sample XORed with its byte of the stream (R103, R104). -/
theorem State.getD_result_xor (s : State) (d : Dir) {a : Nat} (ha : a < s.len) :
    (s.result ⟨.xor, d⟩).getD a 0 = s.sourceAt a ^^^ s.xorByte a := by
  have hsrc := s.getD_sourceBytes ha
  cases d with
  | enc => rw [State.result, xorEncResult, getD_xorCombine _ _ _ _ ha, hsrc, State.xorByte]
  | dec => rw [State.result, xorDecResult, getD_xorCombine _ _ _ _ ha, hsrc, State.xorByte]

/-- A launched XOR command of either direction completes with the XORed samples. -/
theorem exec_xor_completes {s : State} {d : Dir} (hi : s.Inv) (h : s.Launched ⟨.xor, d⟩) :
    ∃ t, exec (Op.instr ⟨.xor, d⟩) s = .next t ∧ s.CompletedAs (fun a => s.sourceAt a ^^^ s.xorByte a) t :=
  exec_launched_as hi h fun _ ha => s.getD_result_xor d ha

/-- Settles O30: both directions are the one procedure of R103. -/
theorem xorCommandsComplete : Obligations.XorCommandsComplete :=
  ⟨fun _ hi h => exec_xor_completes hi h, fun _ hi h => exec_xor_completes hi h⟩

/-- A launched XOR command of either direction, on the destination of a completed one with the same KEY, restores that one's source:
each sample meets the same byte of the stream twice (R105). -/
theorem exec_xor_restores {u t v : State} {d : Dir} (done : u.CompletedAs (fun a => u.sourceAt a ^^^ u.xorByte a) t)
    (reads : t.ReadsBack v) (hi : v.Inv) (h : v.Launched ⟨.xor, d⟩) :
    ∃ w, exec (Op.instr ⟨.xor, d⟩) v = .next w ∧ ∀ a : Nat, a < u.len → w.destAt a = u.sourceAt a := by
  obtain ⟨len, key, source⟩ := done.readBack reads
  obtain ⟨w, hw, done'⟩ := exec_xor_completes hi h
  refine ⟨w, hw, fun a ha => ?_⟩
  have byte : v.xorByte a = u.xorByte a := by rw [State.xorByte, State.xorByte, key]
  calc
    w.destAt a = v.sourceAt a ^^^ v.xorByte a := done'.destAt (len ▸ ha)
    _ = (u.sourceAt a ^^^ u.xorByte a) ^^^ u.xorByte a := by rw [source a ha, byte]
    _ = u.sourceAt a := by rw [BitVec.xor_assoc, BitVec.xor_self, BitVec.xor_zero]

/-- Settles O40: the first run completes, and either direction restores its source from its destination. -/
theorem xorRoundTrip : Obligations.XorRoundTrip := by
  intro u hu launched
  obtain ⟨t, ht, done⟩ := exec_xor_completes hu launched
  exact ⟨t, ht, fun v hv reads => ⟨exec_xor_restores done reads hv, exec_xor_restores done reads hv⟩⟩

end Sys2Proof.Machine

/-! ### The permutation-swap router (43_swap.md) -/

namespace Sys2Proof.Machine

/-! #### The permutation of a run, and its inverse (R107, R110) -/

/-- P, the permutation that KEY and the pixel count select (R107). -/
def State.permutation (s : State) : List Nat := (shuffleIdentity s.pixels (reseed s.key)).1

theorem State.permutation_perm (s : State) : s.permutation.Perm (List.range s.pixels) := shuffleIdentity_perm _ _

@[simp] theorem State.permutation_length (s : State) : s.permutation.length = s.pixels := shuffleIdentity_length _ _

theorem State.permutation_nodup (s : State) : s.permutation.Nodup := s.permutation_perm.nodup_iff.2 List.nodup_range

/-- The source pixel that destination pixel `p` holds: `P[p]` after SWAP.ENC (R108), `P⁻¹[p]` after SWAP.DEC (R110). -/
def State.sourcePixel (s : State) : Dir → Nat → Nat
  | .enc, p => s.permutation.getD p 0
  | .dec, p => s.permutation.idxOf p

theorem State.sourcePixel_lt {s : State} {p : Nat} (hp : p < s.pixels) (d : Dir) : s.sourcePixel d p < s.pixels := by
  cases d with
  | enc =>
    have hl : p < s.permutation.length := by simpa using hp
    have hmem : s.permutation[p] ∈ List.range s.pixels := s.permutation_perm.mem_iff.1 (List.getElem_mem hl)
    rw [State.sourcePixel, List.getD_eq_getElem _ _ hl]
    exact List.mem_range.1 hmem
  | dec =>
    have hmem : p ∈ s.permutation := s.permutation_perm.mem_iff.2 (List.mem_range.2 hp)
    simpa [State.sourcePixel] using List.idxOf_lt_length_of_mem hmem

/-- `P⁻¹[P[p]] = p`. -/
theorem State.sourcePixel_dec_enc {s : State} {p : Nat} (hp : p < s.pixels) :
    s.sourcePixel .dec (s.sourcePixel .enc p) = p := by
  have hl : p < s.permutation.length := by simpa using hp
  rw [State.sourcePixel, State.sourcePixel, List.getD_eq_getElem _ _ hl, s.permutation_nodup.idxOf_getElem]

/-- `P[P⁻¹[p]] = p`. -/
theorem State.sourcePixel_enc_dec {s : State} {p : Nat} (hp : p < s.pixels) :
    s.sourcePixel .enc (s.sourcePixel .dec p) = p := by
  have hl : s.permutation.idxOf p < s.permutation.length := by simpa [State.sourcePixel] using s.sourcePixel_lt hp .dec
  rw [State.sourcePixel, State.sourcePixel, List.getD_eq_getElem _ _ hl, List.getElem_idxOf]

/-- Either direction takes each source pixel to one destination pixel. -/
theorem State.map_sourcePixel_perm (s : State) (d : Dir) :
    ((List.range s.pixels).map (s.sourcePixel d)).Perm (List.range s.pixels) := by
  cases d with
  | enc =>
    have hmap : (List.range s.pixels).map (s.sourcePixel .enc) = s.permutation :=
      List.ext_getElem (by simp) fun i _ hi => by simp [State.sourcePixel, List.getElem?_eq_getElem hi]
    rw [hmap]
    exact s.permutation_perm
  | dec =>
    have hmap : s.permutation.map (s.sourcePixel .dec) = List.range s.pixels :=
      List.ext_getElem (by simp) fun i hi _ => by
        simpa [State.sourcePixel] using s.permutation_nodup.idxOf_getElem i (by simpa using hi)
    have hperm := s.permutation_perm.symm.map (s.sourcePixel .dec)
    rwa [hmap] at hperm

/-! #### The permutation RAM (R43, R107) -/

/-- The RAM's words hold every index of a pixel, since N has at most 32 bits. -/
theorem State.pixels_lt (s : State) : s.pixels < 2 ^ 32 :=
  calc s.pixels
    _ < 2 ^ 16 * 2 ^ 16 := Nat.mul_lt_mul'' s.height.isLt s.width.isLt
    _ = 2 ^ 32 := rfl

/-- `PERM[i]` is `P[i]`, whatever the RAM held before. -/
theorem State.permAt_generatePerm (s : State) (e : Internal) {i : Nat} (hi : i < s.pixels) :
    (generatePerm s.key s.pixels e).permAt i = s.sourcePixel .enc i := by
  have hl : i < s.permutation.length := by simpa using hi
  have hentry : s.permutation.getD i 0 < 2 ^ 32 := (s.sourcePixel_lt hi .enc).trans s.pixels_lt
  rw [List.getD_eq_getElem _ _ hl] at hentry
  have hword : (generatePerm s.key s.pixels e).perm.get Config.freePerm i = BitVec.ofNat 32 s.permutation[i] := by
    have hwritten : (generatePerm s.key s.pixels e).perm.written = s.permutation.map (BitVec.ofNat 32) := rfl
    rw [Store.get, hwritten, List.getD_eq_getElem _ _ (by simpa using hi), List.getElem_map]
  rw [Internal.permAt, hword, State.sourcePixel, List.getD_eq_getElem _ _ hl, BitVec.toNat_ofNat, Nat.mod_eq_of_lt hentry]

/-! #### Where a sample comes from (R108 to R111) -/

/-- The index of the source sample that destination sample `a` holds: its pixel is moved, its channel is kept (R111). -/
def State.sourceIndex (s : State) (d : Dir) (a : Nat) : Nat := 3 * s.sourcePixel d (a / 3) + a % 3

/-- Sample `k` of a pixel comes from sample `k` of the pixel's source pixel. -/
theorem State.sourceIndex_sample (s : State) (d : Dir) (p : Nat) {k : Nat} (hk : k < 3) :
    s.sourceIndex d (3 * p + k) = 3 * s.sourcePixel d p + k := by
  rw [State.sourceIndex, show (3 * p + k) / 3 = p by omega, show (3 * p + k) % 3 = k by omega]

theorem State.div_three_lt_pixels {s : State} {a : Nat} (ha : a < s.len) : a / 3 < s.pixels := by
  unfold State.len at ha
  omega

theorem State.sourceIndex_lt {s : State} {a : Nat} (ha : a < s.len) (d : Dir) : s.sourceIndex d a < s.len := by
  have := s.sourcePixel_lt (s.div_three_lt_pixels ha) d
  unfold State.sourceIndex State.len
  omega

/-- Two moves that take the pixel back take the sample back. -/
theorem State.sourceIndex_sourceIndex {s : State} {d d' : Dir} {a : Nat}
    (h : s.sourcePixel d (s.sourcePixel d' (a / 3)) = a / 3) : s.sourceIndex d (s.sourceIndex d' a) = a :=
  calc s.sourceIndex d (3 * s.sourcePixel d' (a / 3) + a % 3)
    _ = 3 * s.sourcePixel d (s.sourcePixel d' (a / 3)) + a % 3 := s.sourceIndex_sample d _ (Nat.mod_lt a three_pos)
    _ = a := by rw [h, Nat.div_add_mod]

theorem State.sourceIndex_dec_enc {s : State} {a : Nat} (ha : a < s.len) : s.sourceIndex .dec (s.sourceIndex .enc a) = a :=
  s.sourceIndex_sourceIndex (s.sourcePixel_dec_enc (s.div_three_lt_pixels ha))

theorem State.sourceIndex_enc_dec {s : State} {a : Nat} (ha : a < s.len) : s.sourceIndex .enc (s.sourceIndex .dec a) = a :=
  s.sourceIndex_sourceIndex (s.sourcePixel_enc_dec (s.div_three_lt_pixels ha))

/-! #### The result (R82, R108, R109) -/

/-- Stores at distinct places all stay: the place of store `a` holds its value after the last of them. -/
theorem getD_foldl_range_set {α : Type} {n a : Nat} {idx : Nat → Nat} (val : Nat → α) (out : List α) (d : α)
    (distinct : Set.InjOn idx (Set.Iio n)) (inside : ∀ b, b < n → idx b < out.length) (ha : a < n) :
    ((List.range n).foldl (fun o b => o.set (idx b) (val b)) out).getD (idx a) d = val a := by
  induction n with
  | zero => omega
  | succ n ih =>
    rw [List.range_succ, List.foldl_append, List.foldl_cons, List.foldl_nil]
    have hlen := foldl_set_length (List.range n) idx val out
    rcases Nat.lt_succ_iff_lt_or_eq.1 ha with hlt | rfl
    · have hne : idx n ≠ idx a := fun h => hlt.ne' (distinct n.lt_succ_self ha h)
      rw [List.getD_eq_getElem?_getD, List.getElem?_set_ne hne, ← List.getD_eq_getElem?_getD]
      exact ih (distinct.mono (Set.Iio_subset_Iio n.le_succ)) (fun b hb => inside b (by omega)) hlt
    · have hin := hlen ▸ inside a ha
      rw [List.getD_eq_getElem _ _ (by simpa using hin), List.getElem_set_self]

/-- Entry `a` of SWAP.ENC's result: the gather reads the source at `a`'s index (R108). -/
theorem State.getD_result_swapEnc {s : State} {a : Nat} (ha : a < s.len) :
    (s.result ⟨.swap, .enc⟩).getD a 0 = s.sourceAt (s.sourceIndex .enc a) := by
  rw [State.result, swapEncResult, gatherPixels, getD_perSample _ _ ha, s.permAt_generatePerm _ (s.div_three_lt_pixels ha)]
  exact s.getD_sourceBytes (s.sourceIndex_lt ha .enc)

/-- The scatter of SWAP.DEC puts source sample `a` where SWAP.ENC would have taken sample `a` from (R109). -/
theorem State.getD_result_swapDec_scatter {s : State} {a : Nat} (ha : a < s.len) :
    (s.result ⟨.swap, .dec⟩).getD (s.sourceIndex .enc a) 0 = s.sourceAt a := by
  have hscatter : s.result ⟨.swap, .dec⟩ =
      (List.range s.len).foldl (fun out b => out.set (s.sourceIndex .enc b) (s.sourceBytes.getD b 0))
        (List.replicate s.len 0) := by
    refine List.foldl_ext _ _ _ fun out b hb => ?_
    rw [s.permAt_generatePerm _ (s.div_three_lt_pixels (List.mem_range.1 hb)), State.sourceIndex]
  have distinct : Set.InjOn (s.sourceIndex .enc) (Set.Iio s.len) :=
    Set.LeftInvOn.injOn (f₁' := s.sourceIndex .dec) fun b hb => s.sourceIndex_dec_enc hb
  have inside (b : Nat) (hb : b < s.len) : s.sourceIndex .enc b < (List.replicate s.len (0 : Byte)).length := by
    simpa using s.sourceIndex_lt hb .enc
  rw [hscatter, getD_foldl_range_set _ _ _ distinct inside ha, s.getD_sourceBytes ha]

/-- Both directions are gathers: of P, and of P⁻¹ (R108, R110). -/
theorem State.getD_result_swap {s : State} (d : Dir) {a : Nat} (ha : a < s.len) :
    (s.result ⟨.swap, d⟩).getD a 0 = s.sourceAt (s.sourceIndex d a) := by
  cases d with
  | enc => exact s.getD_result_swapEnc ha
  | dec =>
    have := s.getD_result_swapDec_scatter (s.sourceIndex_lt ha .dec)
    rwa [s.sourceIndex_enc_dec ha] at this

/-! #### The commands (R108 to R113) -/

/-- A launched swap command of either direction completes with the gathered samples. -/
theorem exec_swap_completes {s : State} {d : Dir} (hi : s.Inv) (h : s.Launched ⟨.swap, d⟩) :
    ∃ t, exec (Op.instr ⟨.swap, d⟩) s = .next t ∧ s.CompletedAs (fun a => s.sourceAt (s.sourceIndex d a)) t :=
  exec_launched_as hi h fun _ ha => s.getD_result_swap d ha

/-- Settles O33: SWAP.ENC is the gather of P. -/
theorem swapEncCompletes : Obligations.SwapEncCompletes := fun _ hi h => exec_swap_completes hi h

/-- Settles O34: SWAP.DEC is the gather of P⁻¹, which takes sample `3 P[i] + k` from sample `3 i + k`. -/
theorem swapDecCompletes : Obligations.SwapDecCompletes := by
  intro s hi h
  obtain ⟨t, ht, done⟩ := exec_swap_completes hi h
  refine ⟨t, ht, done, fun i k hik hk => ?_⟩
  have ha : 3 * i + k < s.len := by
    unfold State.len
    omega
  have hplace : s.sourceIndex .enc (3 * i + k) = 3 * s.permutation.getD i 0 + k := s.sourceIndex_sample .enc i hk
  calc t.mem.read (s.dst + (3 * s.permutation.getD i 0 + k))
    _ = t.mem.read (s.dst + s.sourceIndex .enc (3 * i + k)) := by rw [hplace]
    _ = s.sourceAt (s.sourceIndex .dec (s.sourceIndex .enc (3 * i + k))) := done.result _ (s.sourceIndex_lt ha .enc)
    _ = s.sourceAt (3 * i + k) := by rw [s.sourceIndex_dec_enc ha]

/-- Source pixel `p` with its three samples in channel order. -/
def State.pixelAt (s : State) (p : Nat) : Byte × Byte × Byte :=
  (s.sourceAt (3 * p), s.sourceAt (3 * p + 1), s.sourceAt (3 * p + 2))

/-- Settles O39: the destination's pixels are the source's at a permutation of their numbers. -/
theorem swapMovesPixelsWhole : Obligations.SwapMovesPixelsWhole := by
  intro s d hi h
  obtain ⟨t, ht, done⟩ := exec_swap_completes hi h
  refine ⟨t, ht, ?_⟩
  have sample {p k : Nat} (hp : p < s.pixels) (hk : k < 3) : t.destAt (3 * p + k) = s.sourceAt (3 * s.sourcePixel d p + k) := by
    rw [done.destAt (by unfold State.len; omega), s.sourceIndex_sample d p hk]
  have moved : ((List.range s.pixels).map fun p => (t.destAt (3 * p), t.destAt (3 * p + 1), t.destAt (3 * p + 2))) =
      ((List.range s.pixels).map (s.sourcePixel d)).map s.pixelAt := by
    rw [List.map_map]
    refine List.map_congr_left fun p hmem => ?_
    have hp := List.mem_range.1 hmem
    exact Prod.ext (sample (k := 0) hp (by decide)) (Prod.ext (sample hp (by decide)) (sample hp (by decide)))
  rw [moved]
  exact (s.map_sourcePixel_perm d).map s.pixelAt

/-- Settles O41: the second run generates the same P (R107), and takes each sample back to its place. -/
theorem swapRoundTrip : Obligations.SwapRoundTrip := by
  intro u hu launched
  obtain ⟨t, ht, done⟩ := exec_swap_completes hu launched
  refine ⟨t, ht, fun v hv reads launched' => ?_⟩
  obtain ⟨len, key, source⟩ := done.readBack reads
  obtain ⟨w, hw, done'⟩ := exec_swap_completes hv launched'
  refine ⟨w, hw, fun a ha => ?_⟩
  have pixels : v.pixels = u.pixels := by
    unfold State.len at len
    omega
  have permutation : v.permutation = u.permutation := by rw [State.permutation, State.permutation, pixels, key]
  have index : v.sourceIndex .dec a = u.sourceIndex .dec a := by
    rw [State.sourceIndex, State.sourceIndex, State.sourcePixel, State.sourcePixel, permutation]
  calc w.destAt a
    _ = v.sourceAt (v.sourceIndex .dec a) := done'.destAt (len ▸ ha)
    _ = v.sourceAt (u.sourceIndex .dec a) := by rw [index]
    _ = u.sourceAt (u.sourceIndex .enc (u.sourceIndex .dec a)) := source _ (u.sourceIndex_lt ha .dec)
    _ = u.sourceAt a := by rw [u.sourceIndex_enc_dec ha]

end Sys2Proof.Machine

/-! ### The modular-arithmetic ALU (44_math.md) -/

namespace Sys2Proof.Machine

/-! #### The 8-bit datapath (R114, R115) -/

/-- Reduction modulo 256 of an exact integer is the ring's own map into 8 bits: it commutes with sums and differences. -/
theorem residue256_eq_ofInt (v : Int) : residue256 v = BitVec.ofInt 8 v := by
  have hmod : 0 ≤ v % 256 := Int.emod_nonneg v (by decide)
  rw [residue256, ← BitVec.ofInt_natCast, Int.toNat_of_nonneg hmod]
  exact BitVec.eq_of_toInt_eq (by rw [BitVec.toInt_ofInt, BitVec.toInt_ofInt]; exact Int.emod_bmod v 256)

theorem keyResidue_eq_ofInt (key : Word) : keyResidue key = BitVec.ofInt 8 (keyInt key) := residue256_eq_ofInt (keyInt key)

/-- The sign of Key does not reach the low byte: a negative register value has the residue of its bits (R114). -/
theorem keyResidue_eq_extractLsb' (key : Word) : keyResidue key = key.extractLsb' 0 8 :=
  calc keyResidue key
    _ = key.signExtend 8 := keyResidue_eq_ofInt key
    _ = key.setWidth 8 := BitVec.signExtend_eq_setWidth_of_le key (by decide)
    _ = key.extractLsb' 0 8 := BitVec.setWidth_eq_extractLsb' (by decide)

/-- The encode function on bytes: the adder's carry is dropped (R115). -/
theorem mathEnc_eq (key : Word) (x : Byte) : mathEnc key x = (x + keyResidue key) ^^^ keyResidue key := by
  have hsum : residue256 (x.toNat + keyInt key) = x + keyResidue key := by
    rw [residue256_eq_ofInt, BitVec.ofInt_add, BitVec.ofInt_natCast, BitVec.ofNat_toNat, BitVec.setWidth_eq, keyResidue_eq_ofInt]
  rw [mathEnc, hsum]

/-- The decode function on bytes: the borrow is dropped (R115). -/
theorem mathDec_eq (key : Word) (x : Byte) : mathDec key x = (x ^^^ keyResidue key) - keyResidue key := by
  have hdiff (y : Byte) : residue256 (y.toNat - keyInt key) = y - keyResidue key := by
    rw [residue256_eq_ofInt, Int.sub_eq_add_neg, BitVec.ofInt_add, BitVec.ofInt_neg, BitVec.ofInt_natCast, BitVec.ofNat_toNat,
      BitVec.setWidth_eq, keyResidue_eq_ofInt, BitVec.sub_eq_add_neg]
  rw [mathDec, hdiff]

/-- Settles O45: k8 is the low byte of KEY, and both functions are byte arithmetic with it. -/
theorem mathEightBitDatapath : Obligations.MathEightBitDatapath := by
  intro key x
  have hk := keyResidue_eq_extractLsb' key
  exact ⟨hk, by rw [mathEnc_eq, hk], by rw [mathDec_eq, hk]⟩

/-! #### The two functions are inverse to each other (R120) -/

theorem mathDec_mathEnc (key : Word) (x : Byte) : mathDec key (mathEnc key x) = x := by
  rw [mathDec_eq, mathEnc_eq, BitVec.xor_assoc, BitVec.xor_self, BitVec.xor_zero, BitVec.add_sub_cancel]

theorem mathEnc_mathDec (key : Word) (x : Byte) : mathEnc key (mathDec key x) = x := by
  rw [mathDec_eq, mathEnc_eq, BitVec.sub_add_cancel, BitVec.xor_assoc, BitVec.xor_self, BitVec.xor_zero]

theorem mathEnc_bijective (key : Word) : Function.Bijective (mathEnc key) :=
  Function.bijective_iff_has_inverse.2 ⟨mathDec key, mathDec_mathEnc key, mathEnc_mathDec key⟩

/-! #### The commands (R116 to R120) -/

theorem exec_mathEnc_completes {s : State} (hi : s.Inv) (h : s.Launched ⟨.math, .enc⟩) :
    ∃ t, exec .mathEnc s = .next t ∧ s.CompletedAs (fun a => mathEnc s.key (s.sourceAt a)) t :=
  exec_launched_as hi h fun _ ha => by rw [State.result, getD_mathEncResult _ _ _ ha, s.getD_sourceBytes ha]

theorem exec_mathDec_completes {s : State} (hi : s.Inv) (h : s.Launched ⟨.math, .dec⟩) :
    ∃ t, exec .mathDec s = .next t ∧ s.CompletedAs (fun a => mathDec s.key (s.sourceAt a)) t :=
  exec_launched_as hi h fun _ ha => by rw [State.result, getD_mathDecResult _ _ _ ha, s.getD_sourceBytes ha]

/-- Settles O31: the statement's exact integers are MathEnc's definition. -/
theorem mathEncCompletes : Obligations.MathEncCompletes := fun _ hi h => exec_mathEnc_completes hi h

/-- Settles O32: the statement's exact integers are MathDec's definition. -/
theorem mathDecCompletes : Obligations.MathDecCompletes := fun _ hi h => exec_mathDec_completes hi h

/-- Settles O42: the second run has the same KEY, so that MathDec meets each sample that MathEnc has made. -/
theorem mathRoundTrip : Obligations.MathRoundTrip := by
  refine ⟨mathDec_mathEnc, mathEnc_bijective, fun u hu launched => ?_⟩
  obtain ⟨t, ht, done⟩ := exec_mathEnc_completes hu launched
  refine ⟨t, ht, fun v hv reads launched' => ?_⟩
  obtain ⟨len, key, source⟩ := done.readBack reads
  obtain ⟨w, hw, done'⟩ := exec_mathDec_completes hv launched'
  refine ⟨w, hw, fun a ha => ?_⟩
  calc w.destAt a
    _ = mathDec v.key (v.sourceAt a) := done'.destAt (len ▸ ha)
    _ = mathDec u.key (mathEnc u.key (u.sourceAt a)) := by rw [key, source a ha]
    _ = u.sourceAt a := mathDec_mathEnc _ _

end Sys2Proof.Machine

/-! ### The channel-interleave-with-noise unit (45_shuffle.md) -/

namespace Sys2Proof.Machine

/-! #### The channel permutation by its two draws (R134) -/

/-- The two turns of R97's loop for n = 3: entry 2 is exchanged with the entry of the first draw, entry 1 with that of the second. -/
theorem shuffleIdentity_three (g : Prng) :
    (shuffleIdentity 3 g).1 =
      swapEntries (swapEntries [0, 1, 2] 2 (interval 2#32 g).1.toNat) 1 (interval 1#32 (interval 2#32 g).2).1.toNat := by
  have hloop : shuffleIdentity 3 g = shuffleFrom (0 + 1 + 1) [0, 1, 2] g := rfl
  rw [hloop, shuffleFrom_succ, shuffleFrom_succ, shuffleFrom]

theorem word_le_one_iff {w : Word} : w ≤ 1#32 ↔ w = 0#32 ∨ w = 1#32 := by bv_omega

theorem word_le_two_iff {w : Word} : w ≤ 2#32 ↔ w = 0#32 ∨ w = 1#32 ∨ w = 2#32 := by bv_omega

/-- Settles O60: the draws are at most 2 and 1, and each of the six pairs makes its own exchanges. -/
theorem channelPermutationTable : Obligations.ChannelPermutationTable := by
  intro g
  dsimp only
  rw [shuffleIdentity_three]
  rcases word_le_two_iff.1 (interval_le 2#32 g) with h1 | h1 | h1 <;>
    rcases word_le_one_iff.1 (interval_le 1#32 (interval 2#32 g).2) with h2 | h2 <;>
    rw [h1, h2] <;> decide

/-! #### CP and its inverse CI (R122, R126) -/

/-- CP, the channel permutation that KEY selects (R122). -/
def State.channelPerm (s : State) : List Nat := (shuffleIdentity 3 (reseed s.key)).1

theorem State.channelPerm_perm (s : State) : s.channelPerm.Perm (List.range 3) := shuffleIdentity_perm _ _

theorem State.mem_channelPerm {s : State} {j : Nat} : j ∈ s.channelPerm ↔ j < 3 := by
  rw [s.channelPerm_perm.mem_iff, List.mem_range]

@[simp] theorem State.channelPerm_length (s : State) : s.channelPerm.length = 3 := shuffleIdentity_length _ _

theorem State.channelPerm_nodup (s : State) : s.channelPerm.Nodup := s.channelPerm_perm.nodup_iff.2 List.nodup_range

theorem State.channelPerm_getD_lt (s : State) {k : Nat} (hk : k < 3) : s.channelPerm.getD k 0 < 3 := by
  rw [List.getD_eq_getElem _ _ (by simpa using hk)]
  exact State.mem_channelPerm.1 (List.getElem_mem _)

theorem State.channelPerm_idxOf_lt (s : State) {j : Nat} (hj : j < 3) : s.channelPerm.idxOf j < 3 := by
  simpa using List.idxOf_lt_length_of_mem (s.mem_channelPerm.2 hj)

/-- `CP[CI[j]] = j`. -/
theorem State.channelPerm_getD_idxOf (s : State) {j : Nat} (hj : j < 3) : s.channelPerm.getD (s.channelPerm.idxOf j) 0 = j := by
  rw [List.getD_eq_getElem _ _ (by simpa using s.channelPerm_idxOf_lt hj), List.getElem_idxOf]

/-! The channel-permutation register holds CP in two bits an entry (R44): no entry is cut. -/

theorem ofNat_two_injOn : Set.InjOn (BitVec.ofNat 2) {j | j < 3} := by
  intro i hi j hj h
  have hi : i < 3 := hi
  have hj : j < 3 := hj
  have := congrArg BitVec.toNat h
  simp only [BitVec.toNat_ofNat] at this
  omega

theorem State.cpAt_loadNoise (s : State) (n : Nat) (e : Internal) {k : Nat} (hk : k < 3) :
    (loadNoise s.key n e).cpAt k = s.channelPerm.getD k 0 := by
  have hcp : (loadNoise s.key n e).cp = s.channelPerm.map (BitVec.ofNat 2) := rfl
  have hlt := s.channelPerm_getD_lt hk
  rw [Internal.cpAt, hcp, show (0 : BitVec 2) = BitVec.ofNat 2 0 from rfl, List.getD_map, BitVec.toNat_ofNat,
    Nat.mod_eq_of_lt (by omega)]

/-- The index of channel `j` in the register is its index in CP. -/
theorem State.ciAt_loadNoise (s : State) (n : Nat) (e : Internal) {j : Nat} (hj : j < 3) :
    (loadNoise s.key n e).ciAt j = s.channelPerm.idxOf j := by
  have hnodup : (s.channelPerm.map (BitVec.ofNat 2)).Nodup :=
    s.channelPerm_nodup.map_on fun i hi k hk h => ofNat_two_injOn (s.mem_channelPerm.1 hi) (s.mem_channelPerm.1 hk) h
  have hl : s.channelPerm.idxOf j < (s.channelPerm.map (BitVec.ofNat 2)).length := by
    simpa using s.channelPerm_idxOf_lt hj
  have hentry : (s.channelPerm.map (BitVec.ofNat 2))[s.channelPerm.idxOf j] = BitVec.ofNat 2 j := by
    rw [List.getElem_map, List.getElem_idxOf]
  calc (loadNoise s.key n e).ciAt j
    _ = (s.channelPerm.map (BitVec.ofNat 2)).idxOf (BitVec.ofNat 2 j) := rfl
    _ = s.channelPerm.idxOf j := by rw [← hentry, hnodup.idxOf_getElem]

/-! #### The noise (R123, R124) -/

/-- `NZ[a]`: the noise is drawn after CP (R124). -/
def State.noiseValue (s : State) (a : Nat) : Int := (drawNoise s.len (shuffleIdentity 3 (reseed s.key)).2).1.getD a 0

/-- A noise value is a draw of `Bounded(-50, 50)`. -/
theorem State.noiseValue_mem {s : State} {a : Nat} (ha : a < s.len) : -50 ≤ s.noiseValue a ∧ s.noiseValue a ≤ 49 := by
  have hdraw (g : Prng) : -50 ≤ (bounded (-50) 50 g).1 ∧ (bounded (-50) 50 g).1 < 50 := bounded_mem (by decide) (by decide) g
  rw [State.noiseValue, getD_drawNoise ha]
  exact ⟨(hdraw _).1, Int.le_of_lt_add_one (hdraw _).2⟩

theorem State.noiseAt_loadNoise (s : State) (e : Internal) {a : Nat} (ha : a < s.len) :
    (loadNoise s.key s.pixels e).noiseAt a = s.noiseValue a := by
  have hl : a < (drawNoise s.len (shuffleIdentity 3 (reseed s.key)).2).1.length := by simpa using ha
  have hwritten : (loadNoise s.key s.pixels e).noise.written = (drawNoise s.len (shuffleIdentity 3 (reseed s.key)).2).1 := rfl
  rw [Internal.noiseAt, Store.get, hwritten, State.noiseValue, List.getD_eq_getElem _ _ hl, List.getD_eq_getElem _ _ hl]

/-! #### The results (R125 to R130) -/

/-- The sample that SHUF.ENC stores at `a` (R125, R127). -/
def State.noisySample (s : State) (a : Nat) : Byte :=
  clip ((s.sourceAt (3 * (a / 3) + s.channelPerm.getD (a % 3) 0)).toNat + s.noiseValue a)

/-- SHUF.ENC stores channel `CP[k]` of a pixel at channel `k`. -/
theorem State.noisySample_sample (s : State) (p : Nat) {k : Nat} (hk : k < 3) :
    s.noisySample (3 * p + k) = clip ((s.sourceAt (3 * p + s.channelPerm.getD k 0)).toNat + s.noiseValue (3 * p + k)) := by
  rw [State.noisySample, show (3 * p + k) / 3 = p by omega, show (3 * p + k) % 3 = k by omega]

/-- The staged sample `T(p, j)` at `a = 3p + j` (R128). -/
def State.stagedSample (s : State) (a : Nat) : Byte := clip ((s.sourceAt a).toNat - s.noiseValue a)

theorem State.getD_result_shufEnc {s : State} {a : Nat} (ha : a < s.len) :
    (s.result ⟨.shuffle, .enc⟩).getD a 0 = s.noisySample a := by
  have hk : a % 3 < 3 := Nat.mod_lt a three_pos
  have hin : 3 * (a / 3) + s.channelPerm.getD (a % 3) 0 < s.len := by
    have := s.channelPerm_getD_lt hk
    unfold State.len at ha ⊢
    omega
  rw [State.result, shufEncResult, addNoise, getD_perSample _ _ ha, s.cpAt_loadNoise _ _ hk, s.noiseAt_loadNoise _ ha,
    s.getD_sourceBytes hin, State.noisySample]

/-- Entry `k` of the staging of pixel `p` (R130). -/
theorem State.get_stagePixel (s : State) (e : Internal) {p k : Nat} (hp : p < s.pixels) (hk : k < 3) :
    (stagePixel s.sourceBytes p (loadNoise s.key s.pixels e)).stage.get Config.freeSample k = s.stagedSample (3 * p + k) := by
  have hin : 3 * p + k < s.len := by
    unfold State.len
    omega
  rw [stagePixel, Store.get, List.getD_eq_getElem _ _ (by simpa using hk), List.getElem_map, List.getElem_range,
    s.getD_sourceBytes hin, s.noiseAt_loadNoise _ hin, State.stagedSample]

theorem State.getD_result_shufDec {s : State} {a : Nat} (ha : a < s.len) :
    (s.result ⟨.shuffle, .dec⟩).getD a 0 = s.stagedSample (3 * (a / 3) + s.channelPerm.idxOf (a % 3)) := by
  have hj : a % 3 < 3 := Nat.mod_lt a three_pos
  rw [State.result, shufDecResult, removeNoise, getD_perSample _ _ ha, s.ciAt_loadNoise _ _ hj,
    s.get_stagePixel _ (s.div_three_lt_pixels ha) (s.channelPerm_idxOf_lt hj)]

/-! #### The commands (R129, R130) -/

theorem exec_shufEnc_completes {s : State} (hi : s.Inv) (h : s.Launched ⟨.shuffle, .enc⟩) :
    ∃ t, exec .shufEnc s = .next t ∧ s.CompletedAs s.noisySample t :=
  exec_launched_as hi h fun _ ha => s.getD_result_shufEnc ha

theorem exec_shufDec_completes {s : State} (hi : s.Inv) (h : s.Launched ⟨.shuffle, .dec⟩) :
    ∃ t, exec .shufDec s = .next t ∧
      s.CompletedAs (fun a => s.stagedSample (3 * (a / 3) + s.channelPerm.idxOf (a % 3))) t :=
  exec_launched_as hi h fun _ ha => s.getD_result_shufDec ha

/-- Settles O35: CP and the noise are those that the unit has loaded. -/
theorem shufEncCompletes : Obligations.ShufEncCompletes := fun _ hi h => exec_shufEnc_completes hi h

/-- Settles O36: the staging of a pixel is read at CI. -/
theorem shufDecCompletes : Obligations.ShufDecCompletes := fun _ hi h => exec_shufDec_completes hi h

/-! #### One sample's way there and back (R132, R133) -/

/-- What becomes of a sample `x` to which `n` is added, and then subtracted again, with a clip each time. -/
def noisedAndBack (x : Byte) (n : Int) : Byte := clip ((clip (x.toNat + n)).toNat - n)

theorem toNat_clip (v : Int) : ((clip v).toNat : Int) = min (max v 0) 255 := by
  rw [clip, BitVec.toNat_ofNat]
  omega

/-- A sum below 0 is stored as 0, from which the decoder makes `-n`; a sum above 255 is stored as 255, from which it makes `255 - n`; from
any other sum it makes the sample (R132). -/
theorem noisedAndBack_cases {x : Byte} {n : Int} (hn : -50 ≤ n ∧ n ≤ 49) :
    (x.toNat + n < 0 ∧ ((noisedAndBack x n).toNat : Int) = -n) ∨
    ((0 ≤ x.toNat + n ∧ x.toNat + n ≤ 255) ∧ ((noisedAndBack x n).toNat : Int) = x.toNat) ∨
    (255 < x.toNat + n ∧ ((noisedAndBack x n).toNat : Int) = 255 - n) := by
  rw [noisedAndBack, toNat_clip, toNat_clip]
  omega

/-- The sample is restored exactly where its sum has not been clipped: `-n` is above it, and `255 - n` below. -/
theorem noisedAndBack_eq_self_iff {x : Byte} {n : Int} (hn : -50 ≤ n ∧ n ≤ 49) :
    noisedAndBack x n = x ↔ 0 ≤ x.toNat + n ∧ x.toNat + n ≤ 255 := by
  rw [← BitVec.toNat_inj]
  rcases noisedAndBack_cases (x := x) hn with ⟨hsum, hback⟩ | ⟨hsum, hback⟩ | ⟨hsum, hback⟩ <;> omega

/-- By how much a sample comes back changed, in each of the two clipped cases and at most (R133). -/
theorem noisedAndBack_deviation {x : Byte} {n : Int} (hn : -50 ≤ n ∧ n ≤ 49) :
    let d : Int := (noisedAndBack x n).toNat - x.toNat
    (x.toNat + n < 0 → d = -n - x.toNat ∧ 1 ≤ d ∧ d ≤ 50) ∧
      (255 < x.toNat + n → d = 255 - n - x.toNat ∧ -49 ≤ d ∧ d ≤ -1) ∧ -50 ≤ d ∧ d ≤ 50 := by
  dsimp only
  rcases noisedAndBack_cases (x := x) hn with ⟨hsum, hback⟩ | ⟨hsum, hback⟩ | ⟨hsum, hback⟩ <;> omega

/-- SHUF.ENC, then SHUF.DEC on its destination: sample `j` of a pixel comes back to its place, having met the same noise value twice,
that of the place CI[j] where it was stored (R131, R132). -/
theorem exec_shuf_thereAndBack {u : State} (hu : u.Inv) (launched : u.Launched ⟨.shuffle, .enc⟩) :
    ∃ t, exec .shufEnc u = .next t ∧ ∀ v : State, v.Inv → t.ReadsBack v → v.Launched ⟨.shuffle, .dec⟩ →
      ∃ w, exec .shufDec v = .next w ∧ ∀ p j : Nat, p < u.pixels → j < 3 →
        w.destAt (3 * p + j) = noisedAndBack (u.sourceAt (3 * p + j)) (u.noiseValue (3 * p + u.channelPerm.idxOf j)) := by
  obtain ⟨t, ht, done⟩ := exec_shufEnc_completes hu launched
  refine ⟨t, ht, fun v hv reads launched' => ?_⟩
  obtain ⟨len, key, source⟩ := done.readBack reads
  obtain ⟨w, hw, done'⟩ := exec_shufDec_completes hv launched'
  refine ⟨w, hw, fun p j hp hj => ?_⟩
  have perm : v.channelPerm = u.channelPerm := by rw [State.channelPerm, State.channelPerm, key]
  have noise : v.noiseValue = u.noiseValue := by
    funext a
    rw [State.noiseValue, State.noiseValue, len, key]
  have hk := u.channelPerm_idxOf_lt hj
  have inside {i : Nat} (hi : i < 3) : 3 * p + i < u.len := by
    unfold State.len
    omega
  calc w.destAt (3 * p + j)
    _ = v.stagedSample (3 * ((3 * p + j) / 3) + v.channelPerm.idxOf ((3 * p + j) % 3)) := done'.destAt (len ▸ inside hj)
    _ = v.stagedSample (3 * p + u.channelPerm.idxOf j) := by
      rw [perm, show (3 * p + j) / 3 = p by omega, show (3 * p + j) % 3 = j by omega]
    _ = noisedAndBack (u.sourceAt (3 * p + j)) (u.noiseValue (3 * p + u.channelPerm.idxOf j)) := by
      rw [State.stagedSample, source _ (inside hk), u.noisySample_sample p hk, u.channelPerm_getD_idxOf hj, noise, noisedAndBack]

/-- The noise value that sample `j` of pixel `p` meets. -/
theorem State.noiseValue_channel_mem {s : State} {p j : Nat} (hp : p < s.pixels) (hj : j < 3) :
    -50 ≤ s.noiseValue (3 * p + s.channelPerm.idxOf j) ∧ s.noiseValue (3 * p + s.channelPerm.idxOf j) ≤ 49 := by
  have hk := s.channelPerm_idxOf_lt hj
  exact State.noiseValue_mem (by unfold State.len; omega)

/-- Settles O43: each sample is added its noise and freed of it again; in the outer ranges noise 0 keeps the sum in 0..255, and -50 or 49
takes it out. -/
theorem shuffleExactRoundTripCondition : Obligations.ShuffleExactRoundTripCondition := by
  refine ⟨fun u hu launched => ?_, fun x hx => ⟨⟨0, by omega⟩, ?outside⟩⟩
  case outside =>
    rcases hx with hlow | hhigh
    · exact ⟨-50, by omega⟩
    · exact ⟨49, by omega⟩
  obtain ⟨t, ht, back⟩ := exec_shuf_thereAndBack hu launched
  refine ⟨t, ht, fun v hv reads launched' => ?_⟩
  obtain ⟨w, hw, sample⟩ := back v hv reads launched'
  refine ⟨w, hw, fun p j hp hj => ?_⟩
  have hn := u.noiseValue_channel_mem hp hj
  rw [sample p j hp hj]
  exact ⟨noisedAndBack_eq_self_iff hn, fun hx => (noisedAndBack_eq_self_iff hn).2 (by omega)⟩

/-- Settles O44: the restored value is that of R133's case, and the sample itself where no clip was made. -/
theorem shuffleDeviationBound : Obligations.ShuffleDeviationBound := by
  intro u hu launched
  obtain ⟨t, ht, back⟩ := exec_shuf_thereAndBack hu launched
  refine ⟨t, ht, fun v hv reads launched' => ?_⟩
  obtain ⟨w, hw, sample⟩ := back v hv reads launched'
  refine ⟨w, hw, fun p j hp hj => ?_⟩
  have hn := u.noiseValue_channel_mem hp hj
  rw [sample p j hp hj]
  exact noisedAndBack_deviation hn

end Sys2Proof.Machine

/-! ### Completion, errors and waiting (60_exceptions.md) -/

namespace Sys2Proof.Machine

/-! #### The engine's turn (R150) -/

/-- The step of a scheduled turn of the engine. -/
theorem step_engine {s : State} {rest : List Event} (h : s.schedule = .engine :: rest) :
    step s = (s.withSchedule rest).engineMove.outcome := by
  simp [step_eq_outcome, State.nextMove, h]

/-- Where nothing is scheduled, the step is the engine's (R86). -/
theorem step_unscheduled {s : State} (h : s.schedule = []) : step s = s.engineMove.outcome := by
  simp [step_eq_outcome, State.nextMove, h]

/-- While IDLE the engine has nothing to do. -/
theorem State.engineMove_idle {s : State} (idle : s.status.busy = false) : s.engineMove = .effect s := by
  simp [State.engineMove, idle]

/-- Settles O7: in both cases the step is the move of the idle engine, which is the end of the turn. -/
theorem idleEngineIsQuiescent : Obligations.IdleEngineIsQuiescent := by
  intro s idle
  refine ⟨fun rest scheduled => ?_, fun unscheduled => ?_⟩
  · have still : (s.withSchedule rest).engineMove = .effect (s.withSchedule rest) := State.engineMove_idle idle
    rw [step_engine scheduled, still]
    rfl
  · rw [step_unscheduled unscheduled, State.engineMove_idle idle]
    rfl

/-! #### The interrupt line (R139) -/

/-- Out of reset the line is the two pending bits, each under its enable bit. -/
theorem State.irq_of_not_rst {s : State} (hr : s.rst = false) :
    s.irq = ((s.status.done && s.irqEn.getLsbD 0) || (s.status.err && s.irqEn.getLsbD 1)) := by
  simp [State.irq, State.doneIe, State.errIe, hr]

/-- An ignored write does not touch the line, which does not read IGN. -/
@[simp] theorem State.ignoreWrite_irq (s : State) : s.ignoreWrite.irq = s.irq := rfl

/-- Settles O23: the line's equation out of reset, and that IGN is not in it. -/
theorem interruptLine : Obligations.InterruptLine := fun s hr => ⟨State.irq_of_not_rst hr, s.ignoreWrite_irq⟩

/-! #### A bus that never responds (R146) -/

/-- Where every access is admitted but one is never answered, the engine's move changes nothing. -/
theorem State.finish_eq_self {s : State} (admitted : s.erring = []) (waits : s.stalls = true) (r : List Byte) :
    s.finish r = s := by
  simp [State.finish, admitted, waits]

/-- Settles O47: the running command's move is `State.finish`, which waits. -/
theorem stalledCommandWaits : Obligations.StalledCommandWaits := by
  intro s op busy latched hr admitted waits
  rw [exec_running busy latched hr, State.finish_eq_self admitted waits]

end Sys2Proof.Machine

/-! ### The reset input (70_reset_and_hazards.md) -/

namespace Sys2Proof.Machine

/-! #### Register accesses in reset (R151) -/

/-- While rst is asserted the port refuses an access, aligned or not. -/
theorem State.portAccess_in_reset {s : State} (hr : s.rst = true) (off : BitVec 6) (access : State → State) :
    s.portAccess off access = .refused .registerAccessInReset := by
  simp [State.portAccess, hr]

/-- While rst is asserted no command runs, so a command instruction is a refused access to CMD. -/
theorem exec_instr_in_reset {s : State} (hr : s.rst = true) (op : Op) : exec op.instr s = .refused .registerAccessInReset := by
  have arrives : ¬(s.status.busy = true ∧ s.op = op ∧ s.rst = false) := fun ⟨_, _, released⟩ => nomatch hr.symm.trans released
  rw [exec_instr, State.command_arrives _ arrives, State.portAccess_in_reset hr]

/-- Settles O25: a command is an access to CMD there, and RD and WR are accesses on the port. -/
theorem instructionsAreRefusedInReset : Obligations.InstructionsAreRefusedInReset := by
  intro i s hr
  obtain ⟨op, rfl⟩ | ⟨off, rfl⟩ | ⟨off, d, rfl⟩ := Instr.command_or_access i
  · exact exec_instr_in_reset hr op
  · exact (exec_rd off s).trans (State.portAccess_in_reset hr off _)
  · exact (exec_wr off d s).trans (State.portAccess_in_reset hr off _)

/-! #### The end of reset (R49, R151) -/

/-- Releasing an asserted rst resets the block once more. -/
theorem State.driveReset_release {s : State} (hr : s.rst = true) : s.driveReset false = s.resetBlock false := by
  simp [State.driveReset, hr]

/-- A low level on an rst that was low already does nothing. -/
theorem State.driveReset_low {s : State} (hr : s.rst = false) : s.driveReset false = s := by
  simp [State.driveReset, hr]

/-- A reset block raises no interrupt. -/
@[simp] theorem State.resetBlock_irq (s : State) (l : Bool) : (s.resetBlock l).irq = false := by
  simp [State.irq]

/-- A reset with no command to abandon keeps buffer memory (R49). -/
theorem State.resetBlock_mem_idle {s : State} (idle : s.status.busy = false) (l : Bool) : (s.resetBlock l).mem = s.mem := by
  simp [State.resetBlock_mem, State.abandon_mem, idle]

/-- Settles O53: the release leaves the reset block, and a level that was low already leaves the state as it is. -/
theorem resetInputDeasserted : Obligations.ResetInputDeasserted := by
  intro s rest scheduled
  refine ⟨fun asserted => ?release, fun released => ?low⟩
  case release =>
    have resets : step s = .next ((s.withSchedule rest).resetBlock false) := by
      rw [step_rst scheduled, State.driveReset_release (s := s.withSchedule rest) asserted]
    exact ⟨(s.withSchedule rest).resetBlock false, resets, rfl, State.resetBlock_irq _ _, rfl, rfl, rfl, rfl, rfl, rfl,
      rfl, rfl, rfl, fun idle => State.resetBlock_mem_idle (s := s.withSchedule rest) idle false⟩
  case low =>
    rw [step_rst scheduled, State.driveReset_low (s := s.withSchedule rest) released]
    rfl

end Sys2Proof.Machine
